-- ==== Sys2Proof/Word.lean ====
section
/-! DEFINITION. The one machine word of the protocol block: the byte on the wire (R90). Everything else the
spec counts is an unsigned natural (R13), so it is a `Nat` whose range is an invariant of the machine. -/

namespace Sys2Proof

/-- The unit the receiver decodes and the sender emits: 8 bits, `b[7:0]` (R90). -/
abbrev Byte := BitVec 8

end Sys2Proof
end

