-- ==== Sys2Proof/Config.lean ====
section
/-! DEFINITION. The implementation parameters of a run (R10): a configuration record, fixed for the run, which no
event writes. Its two reference values CFG_REF (R10) and CFG_WIN (R11), and the values the spec leaves open. -/

namespace Sys2Proof

/-- One timestep's bitmap over the logical matrix: rows in increasing index, in each row the cells in increasing
column index; `true` is a lit cell (R16 "Frame", R60 space LIB). -/
abbrev Frame := List (List Bool)

/-- A named animation, an ordered sequence of frames (R16). Its display name is carried by no rule (R6). -/
structure Pattern where
  frames : List Frame
  deriving DecidableEq, Repr

/-- The parameters of the table of R10, under the table's names. `CAP`, `NUM_PATTERNS`, `CUR_MAX`, `DIAG_MAX`,
`PWM_PERIOD` and `TXQ_ENTRY_MAX` are computed from them below; `BYTE_FRAME_END` and `BYTE_EOT` are fixed. -/
structure Config where
  /-- rows of the logical matrix -/
  ROWS : Nat
  /-- columns of the logical matrix -/
  COLS : Nat
  /-- number of slots of one bank of the Decoded Frame Buffer -/
  MAX_TIMESTEPS : Nat
  /-- the sender's declared maximum frame count -/
  MAX_FRAMES : Nat
  /-- first logical row of the receiver's window -/
  ROW_OFFSET : Nat
  /-- number of rows of the window -/
  ROW_SPAN : Nat
  /-- first logical column of the window -/
  COL_OFFSET : Nat
  /-- number of columns of the window -/
  COL_SPAN : Nat
  /-- pin id of each window row -/
  ROW_PIN : List Nat
  /-- pin id of each window column -/
  COL_PIN : List Nat
  /-- width of a pin id -/
  PIN_W : Nat
  /-- width of the cursor registers `row` and `col` -/
  CUR_W : Nat
  /-- width of the diagnostic counters -/
  DIAG_W : Nat
  /-- width of the PWM counter and of `duty` -/
  PWM_W : Nat
  /-- lower turnaround bound of the duty ramp -/
  DUTY_MIN : Nat
  /-- upper turnaround bound of the duty ramp -/
  DUTY_MAX : Nat
  /-- step of the duty ramp -/
  DUTY_STEP : Nat
  /-- width of the pattern index -/
  SEL_W : Nat
  /-- the Pattern Library, immutable (R21) -/
  PATTERNS : List Pattern
  /-- wire byte of a lit cell -/
  BYTE_ONE : Byte
  /-- wire byte of an unlit cell -/
  BYTE_ZERO : Byte
  /-- wire byte that ends a row -/
  BYTE_SEP : Byte
  deriving DecidableEq, Repr

namespace Config

/-- Frame terminator, fixed (R10). -/
abbrev BYTE_FRAME_END : Byte := 0x00#8

/-- End-of-transmission marker, fixed (R10). -/
abbrev BYTE_EOT : Byte := 0x04#8

/-- Point capacity of one frame-buffer slot: `CAP = ROWS × COLS` (R10). -/
abbrev CAP (c : Config) : Nat := c.ROWS * c.COLS

/-- Largest cursor value: `2^CUR_W − 1` (R10). -/
abbrev CUR_MAX (c : Config) : Nat := 2 ^ c.CUR_W - 1

/-- Largest value of a diagnostic counter: `2^DIAG_W − 1` (R10). -/
abbrev DIAG_MAX (c : Config) : Nat := 2 ^ c.DIAG_W - 1

/-- Period of the PWM counter: `2^PWM_W` (R10). -/
abbrev PWM_PERIOD (c : Config) : Nat := 2 ^ c.PWM_W

/-- Number of patterns in the library (R10, `PATTERNS[0..NUM_PATTERNS−1]`). -/
abbrev NUM_PATTERNS (c : Config) : Nat := c.PATTERNS.length

/-- Longest transmit-queue entry: `ROWS × COLS + ROWS − 1` (R45). -/
abbrev TXQ_ENTRY_MAX (c : Config) : Nat := c.ROWS * c.COLS + c.ROWS - 1

/-- `tx_data` in an event that does not emit is unspecified (R142, 93 U12): any value, a fresh one for each event
(the argument is the model's event counter). No body: nothing can be proved of it. Log entry 3. -/
opaque freeTxData : Nat → Byte

/-- ROW_ACTIVE_LEVEL (R50, 92 D28): the electrical level of an asserted row line, left open; no rule reads it. -/
opaque rowActiveLevel : Bool

/-- COL_ACTIVE_LEVEL (R51, 92 D28): the electrical level of an asserted column line, left open; no rule reads it. -/
opaque colActiveLevel : Bool

/-- A row of cells written as the spec writes it: 1 is lit, 0 is not. -/
def cells (bits : List Nat) : List Bool := bits.map (· == 1)

/-- The reference Pattern Library of 95_test_vectors.md section 0: WIPE, TWO, FULL4. -/
def refLibrary : List Pattern :=
  [⟨[[cells [1,1,1,1,1,1], cells [0,0,0,0,0,0], cells [0,0,0,0,0,0]]]⟩,
   ⟨[[cells [1,0,0,0,0,1], cells [0,0,0,0,0,0], cells [1,0,0,0,0,1]],
     [cells [0,0,0,0,0,0], cells [0,1,1,1,1,0], cells [0,0,0,0,0,0]]]⟩,
   ⟨[[cells [1,1,1,1,1,1], cells [0,0,0,0,0,0], cells [0,0,0,0,0,0]],
     [cells [0,0,0,0,0,0], cells [1,1,1,1,1,1], cells [0,0,0,0,0,0]],
     [cells [0,0,0,0,0,0], cells [0,0,0,0,0,0], cells [1,1,1,1,1,1]],
     [cells [0,0,0,0,0,0], cells [0,0,0,0,0,0], cells [0,0,0,0,0,0]]]⟩]

/-- CFG_REF, the column "Reference" of R10. It is the spec's own test configuration (92 D3); every claim that can
quantifies over the configuration instead. -/
def ref : Config where
  ROWS := 3
  COLS := 6
  MAX_TIMESTEPS := 4
  MAX_FRAMES := 4
  ROW_OFFSET := 0
  ROW_SPAN := 3
  COL_OFFSET := 0
  COL_SPAN := 6
  ROW_PIN := [2, 3, 4]
  COL_PIN := [5, 6, 7, 8, 9, 10]
  PIN_W := 8
  CUR_W := 8
  DIAG_W := 8
  PWM_W := 8
  DUTY_MIN := 10
  DUTY_MAX := 100
  DUTY_STEP := 40
  SEL_W := 8
  PATTERNS := refLibrary
  BYTE_ONE := 0x31#8
  BYTE_ZERO := 0x30#8
  BYTE_SEP := 0x2C#8

/-- CFG_WIN (R11): CFG_REF with a smaller window. -/
def win : Config :=
  { ref with
    ROW_OFFSET := 1
    ROW_SPAN := 2
    COL_OFFSET := 2
    COL_SPAN := 3
    ROW_PIN := [3, 4]
    COL_PIN := [7, 8, 9] }

end Config

end Sys2Proof
end

