-- ==== Sys2Proof/Syntax.lean ====
section
/-! DEFINITION. The instructions: one constructor per row of spec/opcode_table.json. An instruction is one input
event (R3, R9). The six byte classes of R95 are the actions RX_BYTE selects between (R160); the other rows are the
strobes of R101. Also the input ports as the two sub-blocks sample them (R101). -/

namespace Sys2Proof

/-- The two sub-blocks, which share no state (R2). Each has its own `rst` (R260). -/
inductive SubBlock where
  | receiver
  | sender
  deriving DecidableEq, Repr

/-- One event. The byte classes carry no operand (R96) but IGNORE, which stands for 251 byte values and keeps its
byte so that no bit of its encoding is lost. -/
inductive Instr where
  /-- ONE, R162 -/
  | one
  /-- ZERO, R163 -/
  | zero
  /-- ROWEND, R164 -/
  | rowEnd
  /-- FRAMEEND, R165 -/
  | frameEnd
  /-- EOT, R166 -/
  | eot
  /-- IGNORE, R167 -/
  | ignore (b : Byte)
  /-- RX_BYTE(b), R160 -/
  | rxByte (b : Byte)
  /-- RESET of one sub-block, R260 -/
  | reset (target : SubBlock)
  /-- ANIM_TICK, R190 -/
  | animTick
  /-- PWM_TICK, R208 -/
  | pwmTick
  /-- SCAN_STEP, R201 -/
  | scanStep
  /-- SELECT(i), R121 -/
  | select (i : Nat)
  /-- TX_POLL(ready), R141 -/
  | txPoll (ready : Bool)
  deriving DecidableEq, Repr

/-- The input ports of both sub-blocks in one sample (one clock cycle of R237): the strobes of the vectors RXV and TXV
of R101, one field each, and the data ports. A data port is read only under its strobe (93 U15). `sel_index` is the
port's value as a natural; only its low SEL_W bits reach the block (R101). -/
structure Ports where
  /-- the receiver's `rst`: RXV bit 4 -/
  rx_rst : Bool
  /-- RXV bit 3 -/
  rx_valid : Bool
  /-- RXV bit 2 -/
  anim_tick : Bool
  /-- RXV bit 1 -/
  pwm_tick : Bool
  /-- RXV bit 0 -/
  scan_step : Bool
  /-- `rx_data[7:0]` -/
  rx_data : Byte
  /-- the sender's `rst`: TXV bit 2 -/
  tx_rst : Bool
  /-- TXV bit 1 -/
  sel_valid : Bool
  /-- TXV bit 0 -/
  tx_poll : Bool
  /-- `sel_index` -/
  sel_index : Nat
  /-- `tx_ready` -/
  tx_ready : Bool
  deriving DecidableEq, Repr

/-- A sample in which every strobe is 0. -/
def Ports.quiet : Ports where
  rx_rst := false
  rx_valid := false
  anim_tick := false
  pwm_tick := false
  scan_step := false
  rx_data := 0
  tx_rst := false
  sel_valid := false
  tx_poll := false
  sel_index := 0
  tx_ready := false

/-- The strobes of R101. -/
inductive Strobe where
  | rxRst
  | rxValid
  | animTick
  | pwmTick
  | scanStep
  | txRst
  | selValid
  | txPoll
  deriving DecidableEq, Repr

end Sys2Proof
end

