-- ==== Sys2Proof/Machine/State.lean ====
section
/-! DEFINITION. The machine's state as plain data: the receiver and the sender of R20, under the spec's own names, the
parameters of the run, and the input and output ports through which the environment drives it. Ranges are invariants
(Sys2Proof/Safety.lean), not types. -/

namespace Sys2Proof.Machine

/-- A frame-buffer point, format P: the pair of pin ids, row first (R32, R63, R93). -/
structure Point where
  row_pin : Nat
  col_pin : Nat
  deriving DecidableEq, Repr

/-- An address of the space FB-count: bank `b` (`false` is `FB[0]`, `true` is `FB[1]`) and timestep `t` (R60). -/
structure CountAddr where
  bank : Bool
  t : Nat
  deriving DecidableEq, Repr

/-- An address of the space FB-point: bank, timestep and index (R60). -/
structure PointAddr where
  bank : Bool
  t : Nat
  i : Nat
  deriving DecidableEq, Repr

/-- The Decoded Frame Buffer, both banks (R30 to R32): each of its two address spaces as a list of (address, entry)
pairs, addresses strictly rising. An address that `np` does not list reads 0, the reset value (R31), and no listed count
is 0; an address that `pt` does not list holds no value, and reading it is a fault (R32). -/
structure Memory where
  np : List (CountAddr × Nat)
  pt : List (PointAddr × Point)
  deriving DecidableEq, Repr

/-- `duty_dir`: UP (0) or DOWN (1) (R41). -/
inductive DutyDir where
  | up
  | down
  deriving DecidableEq, Repr

/-- `sel_status`: the value 3 of its two bits is never produced (R49). -/
inductive SelStatus where
  | ok
  | invalidPatternIndex
  | transmissionInProgress
  deriving DecidableEq, Repr

/-- The four error classes (R230). -/
inductive ErrorClass where
  | invalidPatternIndex
  | transmissionInProgress
  | bufferOverflow
  | malformedFrame
  deriving DecidableEq, Repr

/-- The state of the receiver, exactly (R20). -/
structure Receiver where
  /-- R22: row of the next cell -/
  row : Nat
  /-- R23: column of the next cell -/
  col : Nat
  /-- R24: points recorded so far in the frame being decoded -/
  pidx : Nat
  /-- R25: staging slot of the frame being decoded; MAX_TIMESTEPS is "buffer full" -/
  ts : Nat
  /-- R26 -/
  after_eot : Bool
  /-- R27: BufferOverflow occurrences -/
  ovf_cnt : Nat
  /-- R27: MalformedFrame occurrences -/
  mal_cnt : Nat
  /-- R30 to R32: `FB[0]` and `FB[1]` -/
  fb : Memory
  /-- R33: which bank is live (`false` is `FB[0]`) -/
  live_sel : Bool
  /-- R34 -/
  maxTimestep : Nat
  /-- R35 -/
  current_timestep : Nat
  /-- R36 -/
  scan_i : Nat
  /-- R37 -/
  scan_lit : Bool
  /-- R38: NONE or the row pin driven -/
  row_drv : Option Nat
  /-- R39: NONE or the column pin driven -/
  col_drv : Option Nat
  /-- R40 -/
  duty : Nat
  /-- R41 -/
  duty_dir : DutyDir
  /-- R42 -/
  pwm_cnt : Nat
  /-- R43 -/
  blank : Bool
  deriving DecidableEq, Repr

/-- The state of the sender, exactly (R20). -/
structure Sender where
  /-- R45: the queue's entries, byte strings without terminator (R94); an index the list does not reach holds no value -/
  txq : List (List Byte)
  /-- R45: number of valid entries -/
  txq_count : Nat
  /-- R46 -/
  q_idx : Nat
  /-- R47 -/
  byte_offset : Nat
  /-- R48 -/
  tx_idle : Bool
  /-- R49 -/
  sel_status : SelStatus
  deriving DecidableEq, Repr

/-- The machine. `rx` and `tx` are the hardware's whole state (R20). The other fields are the model's: the parameters of
the run, which no step writes (R10, R21; log entry 1); the samples the environment will present, the next one first (R9;
log entry 2); the output port of the last event (R142); and the counter that indexes the free value of `tx_data` (log
entry 3). -/
structure State where
  cfg : Config
  rx : Receiver
  tx : Sender
  inputs : List Ports
  /-- `some b`: the event just executed had `tx_valid = 1` and `tx_data = b`; `none`: `tx_valid = 0` -/
  tx_out : Option Byte
  event_no : Nat
  deriving DecidableEq, Repr

/-- Why a step stops with a fault. No rule of the spec reaches one: they stand where a read would have no value to give
(93 U4, U10, U11), and Safety.lean's invariant rules all of them out. -/
inductive Fault where
  /-- SCAN_STEP read a point no ONE has written (R32, 93 U4 "fault on read"): safe -/
  | unwrittenPoint
  /-- TX_POLL read a queue entry at or beyond `txq_count` (R45, 93 U11): safe -/
  | unwrittenQueueEntry
  /-- TX_POLL read a byte beyond the end of the entry (R61, no such address): safe -/
  | noSuchQueueByte
  /-- ONE read a pin table beyond its end, which only an ill-formed configuration allows (R69): safe -/
  | noSuchPin
  deriving DecidableEq, Repr

/-- Why a step is refused. -/
inductive Refusal where
  /-- an arm of `exec` whose instruction has no meaning yet (none is left): safe -/
  | notModelled (mnemonic : String)
  /-- `step` in a state whose configuration violates a constraint of R10: "A model must refuse" it (R12): safe -/
  | illFormedConfig
  deriving DecidableEq, Repr

/-- The three outcomes of an event of this machine. -/
abbrev Result := Host.Outcome State Fault Refusal

/-- The receiver's reset values (R261). -/
def Receiver.reset (c : Config) : Receiver where
  row := 0
  col := 0
  pidx := 0
  ts := 0
  after_eot := false
  ovf_cnt := 0
  mal_cnt := 0
  fb := ⟨[], []⟩
  live_sel := false
  maxTimestep := 0
  current_timestep := 0
  scan_i := 0
  scan_lit := false
  row_drv := none
  col_drv := none
  duty := c.DUTY_MIN
  duty_dir := .up
  pwm_cnt := 0
  blank := false

/-- The sender's reset values (R261). -/
def Sender.reset : Sender where
  txq := []
  txq_count := 0
  q_idx := 0
  byte_offset := 0
  tx_idle := true
  sel_status := .ok

/-- Sender and receiver right after reset under a configuration, with the samples the environment will present. -/
def State.resetWith (c : Config) (inputs : List Ports) : State where
  cfg := c
  rx := Receiver.reset c
  tx := Sender.reset
  inputs := inputs
  tx_out := none
  event_no := 0

/-- The machine right after reset under CFG_REF, with nothing presented. -/
def State.reset : State := State.resetWith Config.ref []

end Sys2Proof.Machine
end

