-- ==== Sys2Proof/Machine/Mem.lean ====
section
/-! DEFINITION. The frame buffer's address spaces: canonical lists of (address, entry) pairs, and the reads and writes of
the Decoded Frame Buffer built from them (R14, R31, R32). -/

namespace Sys2Proof.Machine

namespace Cells

variable {κ α : Type}

/-- The entry an address lists, if it lists one. -/
def lookup [DecidableEq κ] : List (κ × α) → κ → Option α
  | [], _ => none
  | (k, v) :: m, a => if a = k then some v else lookup m a

/-- Writes an entry, keeping the addresses rising in `lt`. -/
def insert [DecidableEq κ] (lt : κ → κ → Bool) : List (κ × α) → κ → α → List (κ × α)
  | [], a, x => [(a, x)]
  | (k, v) :: m, a, x =>
    if a = k then (a, x) :: m
    else if lt a k then (a, x) :: (k, v) :: m
    else (k, v) :: insert lt m a x

/-- Makes an address unlisted. -/
def erase [DecidableEq κ] : List (κ × α) → κ → List (κ × α)
  | [], _ => []
  | (k, v) :: m, a => if a = k then erase m a else (k, v) :: erase m a

/-- Every address lies below the ones after it. -/
def rising (lt : κ → κ → Bool) : List (κ × α) → Bool
  | [] => true
  | (k, _) :: m => m.all (fun e => lt k e.1) && rising lt m

end Cells

/-- The order of FB-count addresses: by bank, then timestep. -/
def CountAddr.lt (a b : CountAddr) : Bool :=
  decide (a.bank.toNat < b.bank.toNat ∨ a.bank = b.bank ∧ a.t < b.t)

/-- The order of FB-point addresses: by bank, then timestep, then index. -/
def PointAddr.lt (a b : PointAddr) : Bool :=
  decide (a.bank.toNat < b.bank.toNat ∨ a.bank = b.bank ∧ (a.t < b.t ∨ a.t = b.t ∧ a.i < b.i))

namespace Memory

/-- The canonical form: addresses strictly rising, and no count listed that an unlisted address reads as. -/
def wf (m : Memory) : Bool :=
  Cells.rising CountAddr.lt m.np && m.np.all (fun e => e.2 != 0) && Cells.rising PointAddr.lt m.pt

/-- `FB[b].np[t]`; 0 where nothing was written since reset (R31). -/
def readCount (m : Memory) (b : Bool) (t : Nat) : Nat :=
  (Cells.lookup m.np ⟨b, t⟩).getD 0

/-- `FB[b].np[t] <- n`. -/
def writeCount (m : Memory) (b : Bool) (t n : Nat) : Memory :=
  { m with np := if n = 0 then Cells.erase m.np ⟨b, t⟩ else Cells.insert CountAddr.lt m.np ⟨b, t⟩ n }

/-- `FB[b].pt[t][i]`; no value where nothing was written since reset (R32). -/
def readPoint (m : Memory) (b : Bool) (t i : Nat) : Option Point :=
  Cells.lookup m.pt ⟨b, t, i⟩

/-- `FB[b].pt[t][i] <- p`. -/
def writePoint (m : Memory) (b : Bool) (t i : Nat) (p : Point) : Memory :=
  { m with pt := Cells.insert PointAddr.lt m.pt ⟨b, t, i⟩ p }

end Memory

end Sys2Proof.Machine
end

