-- ==== Sys2Proof/Machine/Operands.lean ====
section
/-! DEFINITION. Operand forms. No byte carries an operand (R96): a cell's coordinate is the cursor, its destination
`(STAGE, ts, pidx)`, and its pin ids come by table lookup through the window (R68, R69, R97). -/

namespace Sys2Proof.Machine

/-- R14 `sat_inc_N(v)`: `v + 1` if `v < N`, else `N`. -/
def satInc (N v : Nat) : Nat := if v < N then v + 1 else N

/-- R68: both ranges half-open. -/
def inWindow (c : Config) (row col : Nat) : Bool :=
  decide (c.ROW_OFFSET ≤ row) && decide (row < c.ROW_OFFSET + c.ROW_SPAN) &&
    decide (c.COL_OFFSET ≤ col) && decide (col < c.COL_OFFSET + c.COL_SPAN)

/-- R69, R97: `(ROW_PIN[row − ROW_OFFSET], COL_PIN[col − COL_OFFSET])`, asked only when `inWindow` holds; no value where
a table is too short, which a well-formed configuration rules out. -/
def windowPoint (c : Config) (row col : Nat) : Option Point :=
  match c.ROW_PIN[row - c.ROW_OFFSET]?, c.COL_PIN[col - c.COL_OFFSET]? with
  | some rp, some cp => some ⟨rp, cp⟩
  | _, _ => none

/-- R93: the packed form of a point, `row_pin` in the high half. -/
def Point.pack (c : Config) (p : Point) : BitVec (2 * c.PIN_W) :=
  BitVec.ofNat (2 * c.PIN_W) (p.row_pin * 2 ^ c.PIN_W + p.col_pin)

/-- R93: a point from its packed form. -/
def Point.unpack (c : Config) (v : BitVec (2 * c.PIN_W)) : Point where
  row_pin := v.toNat / 2 ^ c.PIN_W
  col_pin := v.toNat % 2 ^ c.PIN_W

/-- The bank DEC writes, STAGE: `FB[1 − live_sel]` (R33). -/
def Receiver.stage (r : Receiver) : Bool := !r.live_sel

/-- The bank SCAN reads, LIVE: `FB[live_sel]` (R33). -/
def Receiver.live (r : Receiver) : Bool := r.live_sel

/-- `STAGE.np[t]`. -/
def Receiver.stagedCount (r : Receiver) (t : Nat) : Nat := r.fb.readCount r.stage t

/-- `STAGE.pt[t][i]`. -/
def Receiver.stagedPoint (r : Receiver) (t i : Nat) : Option Point := r.fb.readPoint r.stage t i

/-- `LIVE.np[t]`. -/
def Receiver.liveCount (r : Receiver) (t : Nat) : Nat := r.fb.readCount r.live t

/-- `LIVE.pt[t][i]`. -/
def Receiver.livePoint (r : Receiver) (t i : Nat) : Option Point := r.fb.readPoint r.live t i

/-- The `n` of R201: `LIVE.np[current_timestep]` under the guard `current_timestep < maxTimestep`, else 0. -/
def Receiver.slotCount (r : Receiver) : Nat :=
  if r.current_timestep < r.maxTimestep then r.liveCount r.current_timestep else 0

/-- `txq[k]`: no value at or beyond `txq_count` (R45). -/
def Sender.entry (x : Sender) (k : Nat) : Option (List Byte) :=
  if k < x.txq_count then x.txq[k]? else none

end Sys2Proof.Machine
end

