-- ==== Sys2Proof/Machine/Flags.lean ====
section
/-! DEFINITION. Flags, status values and error codes: the predicate `frame_empty` (R28), the compare and release tests of
the PWM counter (R208), the turnaround tests of the ramp (R206), and the encodings of `duty_dir`, `sel_status` and the
error classes (R41, R49, R231). -/

namespace Sys2Proof.Machine

/-- R28: `frame_empty := (row = 0 ∧ col = 0)`. -/
def Receiver.frameEmpty (r : Receiver) : Bool := r.row == 0 && r.col == 0

/-- R208: `blank` after the counter moved to `n`: released at the wrap to 0, then set on the compare match, in that
order. -/
def blankAfter (n duty : Nat) (blank : Bool) : Bool :=
  let released := if n = 0 then false else blank
  if n = duty then true else released

/-- R206: the ramp's next value and direction, clamped at both bounds. -/
def rampAfter (c : Config) (duty : Nat) : DutyDir → Nat × DutyDir
  | .up => if duty + c.DUTY_STEP ≥ c.DUTY_MAX then (c.DUTY_MAX, .down) else (duty + c.DUTY_STEP, .up)
  | .down => if duty ≤ c.DUTY_MIN + c.DUTY_STEP then (c.DUTY_MIN, .up) else (duty - c.DUTY_STEP, .down)

/-- R41: UP is 0, DOWN is 1. -/
def DutyDir.code : DutyDir → BitVec 1
  | .up => 0
  | .down => 1

/-- R49: the two bits of `sel_status`. -/
def SelStatus.code : SelStatus → BitVec 2
  | .ok => 0
  | .invalidPatternIndex => 1
  | .transmissionInProgress => 2

/-- R231: the codes of the error classes; 0 is OK. -/
def ErrorClass.code : ErrorClass → Nat
  | .invalidPatternIndex => 1
  | .transmissionInProgress => 2
  | .bufferOverflow => 3
  | .malformedFrame => 4

end Sys2Proof.Machine
end

