-- ==== Sys2Proof/Machine/Ops.lean ====
section
/-! DEFINITION. The named operations the meanings are built from. `raise` is the one shared operation for errors: the
hardware has no traps (R240), so raising an error is exactly a counter increment or a status write and the event goes on
(R14); there is no return from it (R241). -/

namespace Sys2Proof.Machine

namespace State

/-- Replaces the receiver. -/
def setRx (s : State) (r : Receiver) : State := { s with rx := r }

/-- Replaces the sender. -/
def setTx (s : State) (x : Sender) : State := { s with tx := x }

/-- What a step does before its event: the samples left are `rest`, `tx_valid` is 0 until the event emits (R142), and the
free value of `tx_data` is a fresh one (log entry 3). -/
def beginEvent (s : State) (rest : List Ports) : State :=
  { s with inputs := rest, tx_out := none, event_no := s.event_no + 1 }

/-- `raise E` (R14, R232 to R235). -/
def raise (s : State) : ErrorClass → State
  | .bufferOverflow => s.setRx { s.rx with ovf_cnt := satInc s.cfg.DIAG_MAX s.rx.ovf_cnt }
  | .malformedFrame => s.setRx { s.rx with mal_cnt := satInc s.cfg.DIAG_MAX s.rx.mal_cnt }
  | .invalidPatternIndex => s.setTx { s.tx with sel_status := .invalidPatternIndex }
  | .transmissionInProgress => s.setTx { s.tx with sel_status := .transmissionInProgress }

/-- The end of ONE and ZERO: `col <- sat_inc_CUR_MAX(col); after_eot <- 0` (R162, R163). -/
def nextCol (s : State) : State :=
  s.setRx { s.rx with col := satInc s.cfg.CUR_MAX s.rx.col, after_eot := false }

/-- ROWEND's writes: `row <- sat_inc_CUR_MAX(row); col <- 0; after_eot <- 0` (R164). -/
def nextRow (s : State) : State :=
  s.setRx { s.rx with row := satInc s.cfg.CUR_MAX s.rx.row, col := 0, after_eot := false }

/-- `STAGE.pt[ts][pidx] <- p; pidx <- pidx + 1` (R162). -/
def recordPoint (s : State) (p : Point) : State :=
  s.setRx { s.rx with fb := s.rx.fb.writePoint s.rx.stage s.rx.ts s.rx.pidx p, pidx := s.rx.pidx + 1 }

/-- `STAGE.np[ts] <- pidx; ts <- ts + 1` (R165). -/
def storeCount (s : State) : State :=
  s.setRx { s.rx with fb := s.rx.fb.writeCount s.rx.stage s.rx.ts s.rx.pidx, ts := s.rx.ts + 1 }

/-- `row <- 0; col <- 0; pidx <- 0; after_eot <- 0` (R165). -/
def startFrame (s : State) : State :=
  s.setRx { s.rx with row := 0, col := 0, pidx := 0, after_eot := false }

/-- `after_eot <- 0` (R165, the message's final 0x00). -/
def clearAfterEot (s : State) : State := s.setRx { s.rx with after_eot := false }

/-- EOT's writes, the publish among them (R166, R76): STAGE becomes LIVE, the whole cursor returns to the origin. -/
def publish (s : State) : State :=
  s.setRx
    { s.rx with
      live_sel := !s.rx.live_sel
      maxTimestep := s.rx.ts
      current_timestep := 0
      row := 0
      col := 0
      pidx := 0
      ts := 0
      after_eot := true }

/-- `current_timestep <- t` (R190). -/
def showTimestep (s : State) (t : Nat) : State := s.setRx { s.rx with current_timestep := t }

/-- The ASSERT micro-step's writes (R201, R202). -/
def assertPoint (s : State) (p : Point) : State :=
  s.setRx { s.rx with row_drv := some p.row_pin, col_drv := some p.col_pin, scan_lit := true }

/-- The DEASSERT micro-step's writes (R201, R203). -/
def deassert (s : State) : State :=
  s.setRx { s.rx with row_drv := none, col_drv := none, scan_lit := false, scan_i := s.rx.scan_i + 1 }

/-- The END-OF-PASS micro-step's writes: `Ramp(); scan_i <- 0` (R201, R204, R206). -/
def endPass (s : State) : State :=
  s.setRx
    { s.rx with
      duty := (rampAfter s.cfg s.rx.duty s.rx.duty_dir).1
      duty_dir := (rampAfter s.cfg s.rx.duty s.rx.duty_dir).2
      scan_i := 0 }

/-- PWM_TICK's writes (R208); the counter is the only modular one (R15). -/
def countPwm (s : State) : State :=
  s.setRx
    { s.rx with
      pwm_cnt := (s.rx.pwm_cnt + 1) % s.cfg.PWM_PERIOD
      blank := blankAfter ((s.rx.pwm_cnt + 1) % s.cfg.PWM_PERIOD) s.rx.duty s.rx.blank }

/-- An accepted SELECT's writes (R121): the queue holds exactly the entries given, entries above them hold no value. -/
def arm (s : State) (queue : List (List Byte)) : State :=
  s.setTx
    { txq := queue
      txq_count := queue.length
      q_idx := 0
      byte_offset := 0
      tx_idle := false
      sel_status := .ok }

/-- `emit b` (R14, R142): `tx_valid = 1` and `tx_data = b` for this event. -/
def emit (s : State) (b : Byte) : State := { s with tx_out := some b }

/-- `byte_offset <- byte_offset + 1` (R141). -/
def nextByte (s : State) : State := s.setTx { s.tx with byte_offset := s.tx.byte_offset + 1 }

/-- The pump's writes at the end of a string: `byte_offset <- 0`, then idle after the last entry, else on to the next
(R141, R143, R145). -/
def nextString (s : State) : State :=
  s.setTx
    (if s.tx.q_idx + 1 = s.tx.txq_count then { s.tx with byte_offset := 0, q_idx := 0, tx_idle := true }
     else { s.tx with byte_offset := 0, q_idx := s.tx.q_idx + 1 })

end State

end Sys2Proof.Machine
end

