-- ==== Sys2Proof/Machine/AnimationClock.lean ====
section
/-! DEFINITION. The Animation Clock (R190 to R193): the meaning of ANIM_TICK. -/

namespace Sys2Proof.Machine

/-- ANIM_TICK (R190). -/
def execAnimTick (s : State) : Result :=
  if s.rx.maxTimestep = 0 then .next (s.showTimestep 0)
  else if s.rx.current_timestep + 1 ≥ s.rx.maxTimestep then .next (s.showTimestep 0)
  else .next (s.showTimestep (s.rx.current_timestep + 1))

end Sys2Proof.Machine
end

