-- ==== Sys2Proof/Machine/FrameEncoder.lean ====
section
/-! DEFINITION. The Frame Encoder (R120 to R129), a pure function run inside the SELECT event, the macros over bytes of
R103, and the meaning of SELECT. -/

namespace Sys2Proof.Machine

/-- `'1'` for a lit cell, `'0'` for an unlit one (R91). -/
def cellByte (c : Config) (lit : Bool) : Byte := if lit then c.BYTE_ONE else c.BYTE_ZERO

/-- `ROWSTR(f, r)`, of the row's cells (R103, R124). -/
def rowStr (c : Config) (row : List Bool) : List Byte := row.map (cellByte c)

/-- `FRAMESTR(f)`: one separator between consecutive rows and none after the last (R124, R125). -/
def frameStr (c : Config) : Frame → List Byte
  | [] => []
  | [row] => rowStr c row
  | row :: next :: rest => rowStr c row ++ c.BYTE_SEP :: frameStr c (next :: rest)

/-- `Encode(p)`: a string for each frame, then the terminal entry `[0x04]` (R124, R126). -/
def encodePattern (c : Config) (p : Pattern) : List (List Byte) :=
  p.frames.map (frameStr c) ++ [[Config.BYTE_EOT]]

/-- `FRAME(f) = FRAMESTR(f) NUL` (R103). -/
def frameMsg (c : Config) (f : Frame) : List Byte := frameStr c f ++ [Config.BYTE_FRAME_END]

/-- `MSG(p)`, the Wire Message (R92, R103). -/
def msg (c : Config) (p : Pattern) : List Byte :=
  p.frames.flatMap (frameMsg c) ++ [Config.BYTE_EOT, Config.BYTE_FRAME_END]

/-- SELECT(i) (R121 to R123). The index is tested first; a refused SELECT writes `sel_status` only. -/
def execSelect (i : Nat) (s : State) : Result :=
  match s.cfg.PATTERNS[i]? with
  | none => .next (s.raise .invalidPatternIndex)
  | some p =>
    if s.tx.tx_idle then .next (s.arm (encodePattern s.cfg p))
    else .next (s.raise .transmissionInProgress)

end Sys2Proof.Machine
end

