-- ==== Sys2Proof/WellFormed.lean ====
section
/-! DEFINITION. The checks. A configuration must satisfy every constraint of the table of R10 (R12; 93 U17 to U21), and
an instruction must be one the hardware's encodings can carry under that configuration. -/

namespace Sys2Proof

namespace Config

/-- R10 rows ROWS, COLS, CUR_W: `1 ≤ ROWS ≤ CUR_MAX`, `1 ≤ COLS ≤ CUR_MAX`, `CUR_W ≥ 1`. -/
def wfGeometry (c : Config) : Bool :=
  decide (1 ≤ c.CUR_W) && decide (1 ≤ c.ROWS) && decide (c.ROWS ≤ c.CUR_MAX) && decide (1 ≤ c.COLS) &&
    decide (c.COLS ≤ c.CUR_MAX)

/-- R10 row MAX_TIMESTEPS, DIAG_W. -/
def wfCapacity (c : Config) : Bool :=
  decide (1 ≤ c.MAX_TIMESTEPS) && decide (1 ≤ c.DIAG_W)

/-- R12: the window lies inside the geometry. -/
def wfWindow (c : Config) : Bool :=
  decide (c.ROW_OFFSET + c.ROW_SPAN ≤ c.ROWS) && decide (c.COL_OFFSET + c.COL_SPAN ≤ c.COLS)

/-- R10 rows ROW_PIN, COL_PIN, PIN_W (93 U18): one PIN_W-bit id per window row and column, pairwise distinct, the two
tables disjoint. -/
def wfPins (c : Config) : Bool :=
  decide (1 ≤ c.PIN_W) && decide (c.ROW_PIN.length = c.ROW_SPAN) && decide (c.COL_PIN.length = c.COL_SPAN) &&
    (c.ROW_PIN ++ c.COL_PIN).all (fun p => decide (p < 2 ^ c.PIN_W)) && decide ((c.ROW_PIN ++ c.COL_PIN).Nodup)

/-- R10 rows PWM_W, DUTY_MIN, DUTY_MAX, DUTY_STEP (93 U20). -/
def wfDuty (c : Config) : Bool :=
  decide (1 ≤ c.PWM_W) && decide (c.DUTY_MIN ≤ c.DUTY_MAX) && decide (c.DUTY_MAX ≤ c.PWM_PERIOD - 1) &&
    decide (1 ≤ c.DUTY_STEP)

/-- A frame is `ROWS × COLS` cells (R10 row PATTERNS). -/
def wfFrame (c : Config) (f : Frame) : Bool :=
  decide (f.length = c.ROWS) && f.all (fun row => decide (row.length = c.COLS))

/-- A pattern has at most MAX_FRAMES frames, each well-shaped (R10 row PATTERNS, R127, 93 U19). -/
def wfPattern (c : Config) (p : Pattern) : Bool :=
  decide (p.frames.length ≤ c.MAX_FRAMES) && p.frames.all (wfFrame c)

/-- R10 rows SEL_W, NUM_PATTERNS, PATTERNS. -/
def wfLibrary (c : Config) : Bool :=
  decide (1 ≤ c.SEL_W) && decide (c.NUM_PATTERNS ≤ 2 ^ c.SEL_W) && c.PATTERNS.all (wfPattern c)

/-- R10 row BYTE_ONE, BYTE_ZERO, BYTE_SEP (93 U21): three distinct values, none 0x00 or 0x04. -/
def wfBytes (c : Config) : Bool :=
  decide ([c.BYTE_ONE, c.BYTE_ZERO, c.BYTE_SEP, BYTE_FRAME_END, BYTE_EOT].Nodup)

/-- Every constraint of the table of R10: "A model must refuse a configuration that violates any" (R12). -/
def wf (c : Config) : Bool :=
  c.wfGeometry && c.wfCapacity && c.wfWindow && c.wfPins && c.wfDuty && c.wfLibrary && c.wfBytes

end Config

/-- An instruction the encodings can carry: IGNORE stands for the 251 bytes no other class matches (R95), and a pattern
index has SEL_W bits (R121). -/
def Instr.wf (c : Config) : Instr → Bool
  | .ignore b => decide (b ∉ [c.BYTE_ONE, c.BYTE_ZERO, c.BYTE_SEP, Config.BYTE_FRAME_END, Config.BYTE_EOT])
  | .select i => decide (i < 2 ^ c.SEL_W)
  | .one | .zero | .rowEnd | .frameEnd | .eot | .rxByte _ | .reset _ | .animTick | .pwmTick | .scanStep | .txPoll _ =>
    true

end Sys2Proof
end

