-- ==== Sys2Proof/Decode.lean ====
section
/-! DEFINITION. Decoding, total on every word, and after it the encoder. There are two word formats: format B, a byte
(R90), whose decoding is R95; and the strobes with their data ports (R101), several of which may be 1 in one sample and
are then served in the order of R238. -/

namespace Sys2Proof

/-- The six byte classes of R95. -/
inductive ByteClass where
  | one
  | zero
  | rowEnd
  | frameEnd
  | eot
  | ignore
  deriving DecidableEq, Repr

/-- R95, R160: dispatch on the full value of the byte; the first row that matches wins. -/
def classify (c : Config) (b : Byte) : ByteClass :=
  if b = c.BYTE_ONE then .one
  else if b = c.BYTE_ZERO then .zero
  else if b = c.BYTE_SEP then .rowEnd
  else if b = Config.BYTE_FRAME_END then .frameEnd
  else if b = Config.BYTE_EOT then .eot
  else .ignore

/-- Format B decoded: every byte is some class, so nothing is rejected (R98). -/
def decodeByte (c : Config) (b : Byte) : Instr :=
  match classify c b with
  | .one => .one
  | .zero => .zero
  | .rowEnd => .rowEnd
  | .frameEnd => .frameEnd
  | .eot => .eot
  | .ignore => .ignore b

/-- R238: the order in which strobes that are 1 in the same sample are served. Receiver: RESET, RX_BYTE, ANIM_TICK,
PWM_TICK, SCAN_STEP; sender: RESET, SELECT, TX_POLL. The receiver's come first here: a DESIGN CHOICE without effect,
since the two sub-blocks share no state (R2; log entry 5). -/
def Strobe.inOrder : List Strobe :=
  [.rxRst, .rxValid, .animTick, .pwmTick, .scanStep, .txRst, .selValid, .txPoll]

/-- Whether a strobe is 1 in a sample. -/
def Ports.strobe (p : Ports) : Strobe → Bool
  | .rxRst => p.rx_rst
  | .rxValid => p.rx_valid
  | .animTick => p.anim_tick
  | .pwmTick => p.pwm_tick
  | .scanStep => p.scan_step
  | .txRst => p.tx_rst
  | .selValid => p.sel_valid
  | .txPoll => p.tx_poll

/-- The sample with one strobe set to `v`. -/
def Ports.setStrobe (p : Ports) (v : Bool) : Strobe → Ports
  | .rxRst => { p with rx_rst := v }
  | .rxValid => { p with rx_valid := v }
  | .animTick => { p with anim_tick := v }
  | .pwmTick => { p with pwm_tick := v }
  | .scanStep => { p with scan_step := v }
  | .txRst => { p with tx_rst := v }
  | .selValid => { p with sel_valid := v }
  | .txPoll => { p with tx_poll := v }

/-- R101: the event a strobe causes, with its data port read. `sel_index[SEL_W−1:0] = i`. -/
def Ports.event (c : Config) (p : Ports) : Strobe → Instr
  | .rxRst => .reset .receiver
  | .rxValid => .rxByte p.rx_data
  | .animTick => .animTick
  | .pwmTick => .pwmTick
  | .scanStep => .scanStep
  | .txRst => .reset .sender
  | .selValid => .select (p.sel_index % 2 ^ c.SEL_W)
  | .txPoll => .txPoll p.tx_ready

/-- The strobe served first in a sample, if any is 1. -/
def Ports.first (p : Ports) : Option Strobe := Strobe.inOrder.find? p.strobe

/-- R237, R238: the events of one sample, in the order they are applied. -/
def Ports.events (c : Config) (p : Ports) : List Instr :=
  (Strobe.inOrder.filter p.strobe).map (p.event c)

/-- One instruction word: a byte of format B, or a sample of the strobes and data ports. -/
inductive EventWord where
  | byte (b : Byte)
  | sample (p : Ports)
  deriving DecidableEq, Repr

/-- Why a word is no instruction. -/
inductive Reject where
  /-- a sample in which every strobe is 0 causes no event (R236 "a strobe that is 0 leaves no trace") -/
  | noStrobe
  deriving DecidableEq, Repr

/-- The instruction a word stands for; of a sample, the event served first. -/
def decode (c : Config) : EventWord → Except Reject Instr
  | .byte b => .ok (decodeByte c b)
  | .sample p =>
    match p.first with
    | some st => .ok (p.event c st)
    | none => .error .noStrobe

/-- R101: the sample of a receiver strobe vector `RXV = {rst, rx_valid, anim_tick, pwm_tick, scan_step}`, `rst` being its
most significant bit, with `rx_data` 0. -/
def Ports.ofRXV (v : BitVec 5) : Ports :=
  { Ports.quiet with
    rx_rst := v.getLsbD 4
    rx_valid := v.getLsbD 3
    anim_tick := v.getLsbD 2
    pwm_tick := v.getLsbD 1
    scan_step := v.getLsbD 0 }

/-- R101: the sample of a sender strobe vector `TXV = {rst, sel_valid, tx_poll}`, `rst` being its most significant bit,
with `sel_index` and `tx_ready` 0. -/
def Ports.ofTXV (v : BitVec 3) : Ports :=
  { Ports.quiet with
    tx_rst := v.getLsbD 2
    sel_valid := v.getLsbD 1
    tx_poll := v.getLsbD 0 }

/-- The word of a row of spec/opcode_table.json: 8 bits are a byte of format B, 5 bits the vector RXV, 3 bits the vector
TXV. The table has no other length. -/
def tableWord (nbits w : Nat) : Option EventWord :=
  if nbits = 8 then some (.byte (BitVec.ofNat 8 w))
  else if nbits = 5 then some (.sample (Ports.ofRXV (BitVec.ofNat 5 w)))
  else if nbits = 3 then some (.sample (Ports.ofTXV (BitVec.ofNat 3 w)))
  else none

/-- What the decoder reads from a table word, under CFG_REF (the table's byte values are CFG_REF's). -/
def decodeTableWord (nbits w : Nat) : Option Instr :=
  match tableWord nbits w with
  | some word => (decode Config.ref word).toOption
  | none => none

/-- The word of a well-formed instruction: R95 for the byte classes, R101 for the events (its strobe alone is 1; a data
port the event does not read is 0). -/
def encode (c : Config) : Instr → EventWord
  | .one => .byte c.BYTE_ONE
  | .zero => .byte c.BYTE_ZERO
  | .rowEnd => .byte c.BYTE_SEP
  | .frameEnd => .byte Config.BYTE_FRAME_END
  | .eot => .byte Config.BYTE_EOT
  | .ignore b => .byte b
  | .rxByte b => .sample { Ports.quiet with rx_valid := true, rx_data := b }
  | .reset .receiver => .sample { Ports.quiet with rx_rst := true }
  | .reset .sender => .sample { Ports.quiet with tx_rst := true }
  | .animTick => .sample { Ports.quiet with anim_tick := true }
  | .pwmTick => .sample { Ports.quiet with pwm_tick := true }
  | .scanStep => .sample { Ports.quiet with scan_step := true }
  | .select i => .sample { Ports.quiet with sel_valid := true, sel_index := i }
  | .txPoll ready => .sample { Ports.quiet with tx_poll := true, tx_ready := ready }

end Sys2Proof
end

