-- ==== Sys2Proof/Machine/ProtocolDecoder.lean ====
section
/-! DEFINITION. The Protocol Decoder (R160 to R174): the meanings of the six byte actions, and of RX_BYTE, which selects
one of them by the byte's value. -/

namespace Sys2Proof.Machine

/-- ONE (R162): a lit cell at the cursor. Out of the window it is dropped, only `col` advances. -/
def execOne (s : State) : Result :=
  if inWindow s.cfg s.rx.row s.rx.col then
    if s.rx.ts < s.cfg.MAX_TIMESTEPS ∧ s.rx.pidx < s.cfg.CAP then
      match windowPoint s.cfg s.rx.row s.rx.col with
      | some p => .next (s.recordPoint p).nextCol
      | none => .fault .noSuchPin
    else .next (s.raise .bufferOverflow).nextCol
  else .next s.nextCol

/-- ZERO (R163): an unlit cell at the cursor. -/
def execZero (s : State) : Result := .next s.nextCol

/-- ROWEND (R164). -/
def execRowEnd (s : State) : Result := .next s.nextRow

/-- FRAMEEND (R165). -/
def execFrameEnd (s : State) : Result :=
  if s.rx.frameEmpty then
    if s.rx.after_eot then .next s.clearAfterEot
    else .next (s.raise .malformedFrame)
  else if s.rx.ts < s.cfg.MAX_TIMESTEPS then .next s.storeCount.startFrame
  else .next (s.raise .bufferOverflow).startFrame

/-- EOT (R166): an unterminated frame is malformed and discarded; the publish goes ahead. -/
def execEot (s : State) : Result :=
  if s.rx.frameEmpty then .next s.publish
  else .next (s.raise .malformedFrame).publish

/-- IGNORE (R167): its pseudocode is empty. -/
def execIgnore (_b : Byte) (s : State) : Result := .next s

/-- RX_BYTE(b) (R160): one of the six actions, by the value of `b`. -/
def execRxByte (b : Byte) (s : State) : Result :=
  match classify s.cfg b with
  | .one => execOne s
  | .zero => execZero s
  | .rowEnd => execRowEnd s
  | .frameEnd => execFrameEnd s
  | .eot => execEot s
  | .ignore => execIgnore b s

end Sys2Proof.Machine
end

