-- ==== Sys2Proof/Machine/ResetEvent.lean ====
section
/-! DEFINITION. RESET (R260, R261): each sub-block has its own `rst`. -/

namespace Sys2Proof.Machine

/-- RESET of one sub-block (R260): every state element of it takes the value of R261; the other is untouched. -/
def execReset (target : SubBlock) (s : State) : Result :=
  match target with
  | .receiver => .next (s.setRx (Receiver.reset s.cfg))
  | .sender => .next (s.setTx Sender.reset)

end Sys2Proof.Machine
end

