-- ==== Sys2Proof/Machine/ScanDim.lean ====
section
/-! DEFINITION. The Scan/Dim Engine (R200 to R210): the meanings of SCAN_STEP and PWM_TICK. -/

namespace Sys2Proof.Machine

/-- SCAN_STEP (R201): DEASSERT if a point is lit, else ASSERT the next point of the slot, else END-OF-PASS. The slot, its
bank and its count are read afresh (R205). -/
def execScanStep (s : State) : Result :=
  if s.rx.scan_lit then .next s.deassert
  else if s.rx.scan_i < s.rx.slotCount then
    match s.rx.livePoint s.rx.current_timestep s.rx.scan_i with
    | some p => .next (s.assertPoint p)
    | none => .fault .unwrittenPoint
  else .next s.endPass

/-- PWM_TICK (R208). -/
def execPwmTick (s : State) : Result := .next s.countPwm

end Sys2Proof.Machine
end

