-- ==== Sys2Proof/Machine/TransmitPump.lean ====
section
/-! DEFINITION. The Transmit Pump (R140 to R148): the meaning of TX_POLL. -/

namespace Sys2Proof.Machine

/-- TX_POLL(ready) (R141): nothing when not ready or idle (R144, R145); the terminator 0x00 when the current string is
exhausted (R143); else the string's next byte. -/
def execTxPoll (ready : Bool) (s : State) : Result :=
  if !ready || s.tx.tx_idle then .next s
  else
    match s.tx.entry s.tx.q_idx with
    | none => .fault .unwrittenQueueEntry
    | some str =>
      if s.tx.byte_offset = str.length then .next (s.nextString.emit 0x00#8)
      else
        match str[s.tx.byte_offset]? with
        | some b => .next (s.nextByte.emit b)
        | none => .fault .noSuchQueueByte

end Sys2Proof.Machine
end

