-- ==== Sys2Proof/Machine/Dispatch.lean ====
section
/-! DEFINITION. The one dispatch over the instructions: each arm calls its instruction's own meaning. -/

namespace Sys2Proof.Machine

def exec (i : Instr) (s : State) : Host.Outcome State Fault Refusal :=
  match i with
  | .one => Sys2Proof.Machine.execOne s
  | .zero => Sys2Proof.Machine.execZero s
  | .rowEnd => Sys2Proof.Machine.execRowEnd s
  | .frameEnd => Sys2Proof.Machine.execFrameEnd s
  | .eot => Sys2Proof.Machine.execEot s
  | .ignore b => Sys2Proof.Machine.execIgnore b s
  | .rxByte b => Sys2Proof.Machine.execRxByte b s
  | .reset target => Sys2Proof.Machine.execReset target s
  | .animTick => Sys2Proof.Machine.execAnimTick s
  | .pwmTick => Sys2Proof.Machine.execPwmTick s
  | .scanStep => Sys2Proof.Machine.execScanStep s
  | .select k => Sys2Proof.Machine.execSelect k s
  | .txPoll ready => Sys2Proof.Machine.execTxPoll ready s

end Sys2Proof.Machine
end

