-- ==== Sys2Proof/Machine/Fetch.lean ====
section
/-! DEFINITION. How the next event is taken from the samples the environment presents (R9, R237, R238): one event a step,
the strobes of one sample in the order of R238; a sample with no strobe left is done. -/

namespace Sys2Proof.Machine

/-- The sample with the strobe just served cleared: a strobe is 1 for exactly the event it triggers (R16, R236). -/
def serve (p : Ports) (st : Strobe) : Ports := p.setStrobe false st

/-- What is left of the samples after an event of `p`. -/
def afterServing (p : Ports) (rest : List Ports) : List Ports :=
  if p.first.isSome then p :: rest else rest

/-- The next event, if the sample at the head has one, and the samples left. A sample whose strobes are all 0 passes
without an event, and so does a cycle in which nothing is presented. -/
def fetch (c : Config) : List Ports → Option Instr × List Ports
  | [] => (none, [])
  | p :: rest =>
    match p.first with
    | none => (none, rest)
    | some st => (some (p.event c st), afterServing (serve p st) rest)

/-- The sample that presents a table word: the byte on `rx_data` under `rx_valid`, or the strobe vector itself; the quiet
sample for a length the table does not have. -/
def fetchSample (nbits w : Nat) : Ports :=
  match tableWord nbits w with
  | some (.byte b) => { Ports.quiet with rx_valid := true, rx_data := b }
  | some (.sample p) => p
  | none => Ports.quiet

end Sys2Proof.Machine
end

