-- ==== Sys2Proof/Machine/Step.lean ====
section
/-! DEFINITION. One step: the next event the environment presents, executed atomically (R9). -/

namespace Sys2Proof.Machine

/-- One step. A state whose configuration violates a constraint of R10 is refused (R12). Where nothing is presented, or a
sample has no strobe at 1, a cycle passes and no state element changes. -/
def step (s : State) : Host.Outcome State Fault Refusal :=
  if s.cfg.wf then
    match fetch s.cfg s.inputs with
    | (none, rest) => .next (s.beginEvent rest)
    | (some i, rest) => exec i (s.beginEvent rest)
  else .refused .illFormedConfig

/-- The state with one more sample in front of those the environment will present: the one that carries a row's word, so
that the very next step runs that instruction (log entry 2). -/
def State.withFetchWord (s : State) (nbits w : Nat) : State :=
  { s with inputs := fetchSample nbits w :: s.inputs }

end Sys2Proof.Machine
end

