-- ==== Sys2Proof/Machine/Outputs.lean ====
section
/-! DEFINITION. The output ports, functions of the state (R50 to R52, R210). -/

namespace Sys2Proof.Machine

namespace State

/-- R50: for a pin id in ROW_PIN, asserted exactly when SCAN drives it and `blank = 0`. -/
def rowOut (s : State) (p : Nat) : Bool :=
  decide (p ∈ s.cfg.ROW_PIN) && decide (s.rx.row_drv = some p) && !s.rx.blank

/-- R51: for a pin id in COL_PIN, asserted exactly when SCAN drives it; `blank` does not gate columns. -/
def colOut (s : State) (p : Nat) : Bool :=
  decide (p ∈ s.cfg.COL_PIN) && decide (s.rx.col_drv = some p)

/-- R51: the LED at (row pin, column pin) emits light exactly when both its lines are asserted. -/
def ledLit (s : State) (r c : Nat) : Bool := s.rowOut r && s.colOut c

/-- The electrical level of a row line: ROW_ACTIVE_LEVEL when asserted, the other level when not (R50; log entry 4). -/
def rowLevel (s : State) (p : Nat) : Bool := s.rowOut p == Config.rowActiveLevel

/-- The electrical level of a column line (R51; log entry 4). -/
def colLevel (s : State) (p : Nat) : Bool := s.colOut p == Config.colActiveLevel

/-- `ovf_cnt` port (R52). -/
def ovfCntOut (s : State) : Nat := s.rx.ovf_cnt

/-- `mal_cnt` port (R52). -/
def malCntOut (s : State) : Nat := s.rx.mal_cnt

/-- `max_timestep_out` (R52). -/
def maxTimestepOut (s : State) : Nat := s.rx.maxTimestep

/-- `current_timestep_out` (R52). -/
def currentTimestepOut (s : State) : Nat := s.rx.current_timestep

/-- `sel_status` port (R52, R49). -/
def selStatusOut (s : State) : BitVec 2 := s.tx.sel_status.code

/-- `tx_idle` port (R52). -/
def txIdleOut (s : State) : Bool := s.tx.tx_idle

/-- `tx_valid`, of the event just executed (R142). -/
def txValid (s : State) : Bool := s.tx_out.isSome

/-- `tx_data`, of the event just executed: the byte emitted, or any value where none was (R142, 93 U12). -/
def txData (s : State) : Byte := s.tx_out.getD (Config.freeTxData s.event_no)

end State

end Sys2Proof.Machine
end

