-- ==== Sys2Proof/Safety.lean ====
section
/-! DEFINITION. The terms claims are stated in: runs of events, what a run emits, the states reachable from RESET, the
invariant that rules out every state no run reaches, and the partition of the state by who writes it. -/

namespace Sys2Proof.Machine

/-- The state an outcome goes on in, if it goes on. -/
def nextState? (r : Result) : Option State :=
  match r with
  | .next s => some s
  | .fault _ => none
  | .refused _ => none

/-- The events of a list one after the other, stopping where one stops. -/
def runEvents : List Instr → State → Result
  | [], s => .next s
  | i :: is, s =>
    match exec i s with
    | .next t => runEvents is t
    | .fault r => .fault r
    | .refused r => .refused r

/-- One RX_BYTE event for each byte, in order (R104 `RX "..."`). -/
def rxBytes (bs : List Byte) : List Instr := bs.map .rxByte

/-- The events of a list one after the other, as steps execute them (`tx_valid` is 0 again at the start of each), with the
bytes emitted on the way; nothing where an event stops. -/
def emitRun : List Instr → State → Option (List Byte × State)
  | [], s => some ([], s)
  | i :: is, s =>
    match exec i (s.beginEvent s.inputs) with
    | .next t => (emitRun is t).map fun r => (t.tx_out.toList ++ r.1, r.2)
    | .fault _ => none
    | .refused _ => none

/-- The states reachable from RESET (R261) under some well-formed configuration and any samples from the environment. -/
inductive Reachable : State → Prop
  | reset (c : Config) (inputs : List Ports) (h : c.wf = true) : Reachable (State.resetWith c inputs)
  | step (s t : State) (hs : Reachable s) (h : step s = .next t) : Reachable t

/-- The agent that takes an event (R9). -/
inductive Agent where
  | dec
  | anim
  | pwm
  | scan
  | sel
  | txp
  | rst (target : SubBlock)
  deriving DecidableEq, Repr

/-- Which agent takes an event (R9). -/
def agentOf : Instr → Agent
  | .one | .zero | .rowEnd | .frameEnd | .eot | .ignore _ | .rxByte _ => .dec
  | .animTick => .anim
  | .pwmTick => .pwm
  | .scanStep => .scan
  | .select _ => .sel
  | .txPoll _ => .txp
  | .reset target => .rst target

/-- The byte class an event acts as, if it is a byte's (R160). -/
def byteClass (c : Config) : Instr → Option ByteClass
  | .one => some .one
  | .zero => some .zero
  | .rowEnd => some .rowEnd
  | .frameEnd => some .frameEnd
  | .eot => some .eot
  | .ignore _ => some .ignore
  | .rxByte b => some (classify c b)
  | .reset _ | .animTick | .pwmTick | .scanStep | .select _ | .txPoll _ => none

/-- What decoding is a function of, and all it writes but `current_timestep` (R168). -/
structure DecoderView where
  row : Nat
  col : Nat
  pidx : Nat
  ts : Nat
  after_eot : Bool
  ovf_cnt : Nat
  mal_cnt : Nat
  fb : Memory
  live_sel : Bool
  maxTimestep : Nat
  deriving DecidableEq, Repr

/-- The decoder's part of a receiver (R168). -/
def Receiver.decoderView (r : Receiver) : DecoderView where
  row := r.row
  col := r.col
  pidx := r.pidx
  ts := r.ts
  after_eot := r.after_eot
  ovf_cnt := r.ovf_cnt
  mal_cnt := r.mal_cnt
  fb := r.fb
  live_sel := r.live_sel
  maxTimestep := r.maxTimestep

/-- The number of window cells that come before the cursor in row-major order (R71's argument). -/
def cellsBefore (c : Config) (row col : Nat) : Nat :=
  if row < c.ROW_OFFSET then 0
  else if row < c.ROW_OFFSET + c.ROW_SPAN then
    (row - c.ROW_OFFSET) * c.COL_SPAN + min (col - c.COL_OFFSET) c.COL_SPAN
  else c.ROW_SPAN * c.COL_SPAN

/-- R22 to R28, R71: the ranges of the decoder's registers; an empty frame has no points; each window cell is recorded at
most once in a frame. -/
def CursorInv (c : Config) (r : Receiver) : Prop :=
  r.row ≤ c.CUR_MAX ∧ r.col ≤ c.CUR_MAX ∧ r.ts ≤ c.MAX_TIMESTEPS ∧ r.ovf_cnt ≤ c.DIAG_MAX ∧ r.mal_cnt ≤ c.DIAG_MAX ∧
    (r.frameEmpty = true → r.pidx = 0) ∧ r.pidx ≤ cellsBefore c r.row r.col

/-- R31, R32, R61, R71: the buffer is in canonical form, lists only addresses that exist, counts at most the window's
cells, and every point in it is a pair of window pins. -/
def BufferInv (c : Config) (m : Memory) : Prop :=
  m.wf = true ∧
    (∀ b t, m.readCount b t ≤ c.ROW_SPAN * c.COL_SPAN) ∧
    (∀ b t, c.MAX_TIMESTEPS ≤ t → m.readCount b t = 0) ∧
    (∀ b t i, c.MAX_TIMESTEPS ≤ t ∨ c.CAP ≤ i → m.readPoint b t i = none) ∧
    (∀ b t i p, m.readPoint b t i = some p → p.row_pin ∈ c.ROW_PIN ∧ p.col_pin ∈ c.COL_PIN)

/-- R70: every point below a count that SCAN may read, now or after the next publish, has been written. -/
def WrittenInv (c : Config) (r : Receiver) : Prop :=
  (∀ t i, t < r.maxTimestep → i < r.liveCount t → (r.livePoint t i).isSome = true) ∧
    (∀ t i, t < r.ts → i < r.stagedCount t → (r.stagedPoint t i).isSome = true) ∧
    (∀ i, r.ts < c.MAX_TIMESTEPS → i < r.pidx → (r.stagedPoint r.ts i).isSome = true)

/-- R34, R35, R193. -/
def AnimInv (c : Config) (r : Receiver) : Prop :=
  r.maxTimestep ≤ c.MAX_TIMESTEPS ∧
    (r.current_timestep < r.maxTimestep ∨ r.maxTimestep = 0 ∧ r.current_timestep = 0)

/-- R36 to R39: a point is lit exactly when one row line and one column line are driven, both of the window. -/
def ScanInv (c : Config) (r : Receiver) : Prop :=
  r.scan_i ≤ c.CAP ∧ (r.scan_lit = true → r.scan_i < c.CAP) ∧
    (r.scan_lit = true ↔ r.row_drv ≠ none) ∧ (r.scan_lit = true ↔ r.col_drv ≠ none) ∧
    (∀ p, r.row_drv = some p → p ∈ c.ROW_PIN) ∧ (∀ p, r.col_drv = some p → p ∈ c.COL_PIN)

/-- R40, R42, R206: the ranges of the brightness registers. -/
def BrightnessInv (c : Config) (r : Receiver) : Prop :=
  c.DUTY_MIN ≤ r.duty ∧ r.duty ≤ c.DUTY_MAX ∧ r.pwm_cnt < c.PWM_PERIOD

/-- R45 to R48: the queue holds the entries it counts, each within bounds; while a transmission is armed the pump stands at
one of them, not beyond its end. -/
def SenderInv (c : Config) (x : Sender) : Prop :=
  x.txq.length = x.txq_count ∧ x.txq_count ≤ c.MAX_FRAMES + 1 ∧ (∀ e ∈ x.txq, e.length ≤ c.TXQ_ENTRY_MAX) ∧
    x.q_idx ≤ c.MAX_FRAMES ∧ x.byte_offset ≤ c.TXQ_ENTRY_MAX ∧
    (x.tx_idle = false → x.q_idx < x.txq_count ∧ ∃ e, x.entry x.q_idx = some e ∧ x.byte_offset ≤ e.length)

/-- What holds in every state a run reaches from RESET. -/
def StateInv (s : State) : Prop :=
  s.cfg.wf = true ∧ CursorInv s.cfg s.rx ∧ BufferInv s.cfg s.rx.fb ∧ WrittenInv s.cfg s.rx ∧ AnimInv s.cfg s.rx ∧
    ScanInv s.cfg s.rx ∧ BrightnessInv s.cfg s.rx ∧ SenderInv s.cfg s.tx

/-- R68: the cell is in the window; both ranges half-open. -/
def CellInWindow (c : Config) (row col : Nat) : Prop :=
  (c.ROW_OFFSET ≤ row ∧ row < c.ROW_OFFSET + c.ROW_SPAN) ∧ c.COL_OFFSET ≤ col ∧ col < c.COL_OFFSET + c.COL_SPAN

/-- The pins of a cell of the window (R69); under a well-formed configuration the defaults are never used. -/
def pinsAt (c : Config) (row col : Nat) : Point where
  row_pin := c.ROW_PIN.getD (row - c.ROW_OFFSET) 0
  col_pin := c.COL_PIN.getD (col - c.COL_OFFSET) 0

/-- Cell (row, col) of a frame is lit (R60 space LIB). -/
def lit (f : Frame) (row col : Nat) : Bool := (f.getD row []).getD col false

/-- The points of the lit cells of a frame that satisfy `keep`, in row-major order, through the pin tables (R169, R170). -/
def litPoints (c : Config) (f : Frame) (keep : Nat → Nat → Bool) : List Point :=
  (List.range c.ROWS).flatMap fun row =>
    (List.range c.COLS).filterMap fun col =>
      if lit f row col && keep row col then some (pinsAt c row col) else none

/-- The constraints of the table of R10, row by row (R12). -/
def ConfigConstraints (c : Config) : Prop :=
  (1 ≤ c.ROWS ∧ c.ROWS ≤ c.CUR_MAX) ∧ (1 ≤ c.COLS ∧ c.COLS ≤ c.CUR_MAX) ∧ 1 ≤ c.MAX_TIMESTEPS ∧
    c.ROW_OFFSET + c.ROW_SPAN ≤ c.ROWS ∧ c.COL_OFFSET + c.COL_SPAN ≤ c.COLS ∧
    (c.ROW_PIN.length = c.ROW_SPAN ∧ c.ROW_PIN.Nodup ∧ ∀ p ∈ c.ROW_PIN, p < 2 ^ c.PIN_W) ∧
    (c.COL_PIN.length = c.COL_SPAN ∧ c.COL_PIN.Nodup ∧ ∀ p ∈ c.COL_PIN, p < 2 ^ c.PIN_W ∧ p ∉ c.ROW_PIN) ∧
    1 ≤ c.PIN_W ∧ 1 ≤ c.CUR_W ∧ 1 ≤ c.DIAG_W ∧ 1 ≤ c.PWM_W ∧
    (c.DUTY_MIN ≤ c.DUTY_MAX ∧ c.DUTY_MAX ≤ c.PWM_PERIOD - 1) ∧ 1 ≤ c.DUTY_STEP ∧
    1 ≤ c.SEL_W ∧ c.NUM_PATTERNS ≤ 2 ^ c.SEL_W ∧
    (∀ p ∈ c.PATTERNS, p.frames.length ≤ c.MAX_FRAMES ∧
      ∀ f ∈ p.frames, f.length = c.ROWS ∧ ∀ row ∈ f, row.length = c.COLS) ∧
    (c.BYTE_ONE ≠ c.BYTE_ZERO ∧ c.BYTE_ONE ≠ c.BYTE_SEP ∧ c.BYTE_ZERO ≠ c.BYTE_SEP) ∧
    ∀ b ∈ [c.BYTE_ONE, c.BYTE_ZERO, c.BYTE_SEP], b ≠ 0x00#8 ∧ b ≠ 0x04#8

/-- The five bytes with an action (R95). -/
def activeBytes (c : Config) : List Byte := [c.BYTE_ONE, c.BYTE_ZERO, c.BYTE_SEP, 0x00#8, 0x04#8]

/-- R238: the events of one cycle in the order they are applied, written out strobe by strobe. -/
def cycleEvents (c : Config) (p : Ports) : List Instr :=
  (if p.rx_rst then [.reset .receiver] else []) ++
  (if p.rx_valid then [.rxByte p.rx_data] else []) ++
  (if p.anim_tick then [.animTick] else []) ++
  (if p.pwm_tick then [.pwmTick] else []) ++
  (if p.scan_step then [.scanStep] else []) ++
  (if p.tx_rst then [.reset .sender] else []) ++
  (if p.sel_valid then [.select (p.sel_index % 2 ^ c.SEL_W)] else []) ++
  (if p.tx_poll then [.txPoll p.tx_ready] else [])

/-- The decoder is at the start of a message: nothing of a frame received, timestep 0 (R169, R172). -/
def AtMessageStart (r : Receiver) : Prop := r.row = 0 ∧ r.col = 0 ∧ r.pidx = 0 ∧ r.ts = 0

/-- The live bank shows exactly these frames through the window: as many timesteps, and at each the points of the lit
cells inside the window, in row-major order (R169, R170). -/
def Shows (r : Receiver) (c : Config) (frames : List Frame) (keep : Nat → Nat → Bool) : Prop :=
  r.maxTimestep = frames.length ∧
    ∀ k f, frames[k]? = some f →
      r.liveCount k = (litPoints c f keep).length ∧
        ∀ i, i < (litPoints c f keep).length → r.livePoint k i = (litPoints c f keep)[i]?

/-- A receiver event. -/
def onReceiver (i : Instr) : Bool :=
  match agentOf i with
  | .dec | .anim | .pwm | .scan | .rst .receiver => true
  | .sel | .txp | .rst .sender => false

/-- A TX_POLL with `ready = 1`. -/
def isReadyPoll (i : Instr) : Bool :=
  match i with
  | .txPoll true => true
  | _ => false

end Sys2Proof.Machine
end

