-- ==== Sys2Proof/Certificates/Slice0/Obligations.lean ====
section
/-! DEFINITION. The statements about this model, taken from the spec's numbered rules. -/

open Sys2Proof Sys2Proof.Machine

/-! ### Configuration and reset -/

/-- R261: RESET of a sub-block sets every element of it to the table's value and leaves the other sub-block alone. -/
def Obligations.ResetTakesTableValues : Prop :=
  ∀ s : State,
    (∃ t, exec (.reset .receiver) s = .next t ∧
      (t.rx.row = 0 ∧ t.rx.col = 0 ∧ t.rx.pidx = 0 ∧ t.rx.ts = 0 ∧ t.rx.after_eot = false) ∧
      (t.rx.ovf_cnt = 0 ∧ t.rx.mal_cnt = 0) ∧
      (∀ b k, t.rx.fb.readCount b k = 0) ∧ (∀ b k i, t.rx.fb.readPoint b k i = none) ∧
      (t.rx.live_sel = false ∧ t.rx.maxTimestep = 0 ∧ t.rx.current_timestep = 0) ∧
      (t.rx.scan_i = 0 ∧ t.rx.scan_lit = false ∧ t.rx.row_drv = none ∧ t.rx.col_drv = none) ∧
      (t.rx.duty = s.cfg.DUTY_MIN ∧ t.rx.duty_dir = .up ∧ t.rx.pwm_cnt = 0 ∧ t.rx.blank = false) ∧
      t = { s with rx := t.rx }) ∧
    (∃ t, exec (.reset .sender) s = .next t ∧
      (t.tx.txq_count = 0 ∧ (∀ k, t.tx.entry k = none) ∧ t.tx.q_idx = 0 ∧ t.tx.byte_offset = 0) ∧
      (t.tx.tx_idle = true ∧ t.tx.sel_status = .ok) ∧
      t = { s with tx := t.tx })

/-- The machine starts as RESET of both sub-blocks leaves it, under CFG_REF (the model's choice, log entry 1) and with
nothing presented (log entry 2). -/
def Obligations.MachineStartsAsBothResetsLeaveIt : Prop :=
  State.reset.cfg = Config.ref ∧ State.reset.inputs = [] ∧ State.reset.tx_out = none ∧
    ∀ s : State, s.cfg = Config.ref →
      exec (.reset .receiver) s = .next { s with rx := State.reset.rx } ∧
      exec (.reset .sender) s = .next { s with tx := State.reset.tx }

/-- R12: a configuration that violates any constraint of the table of R10 is refused, one that satisfies them all is not,
and under it the saturated cursor value is never inside the window. -/
def Obligations.ConfigurationRefusedExactlyWhenIllFormed : Prop :=
  ∀ s : State,
    (¬ConfigConstraints s.cfg → step s = .refused .illFormedConfig) ∧
    (ConfigConstraints s.cfg → step s ≠ .refused .illFormedConfig ∧
      ∀ k, ¬CellInWindow s.cfg s.cfg.CUR_MAX k ∧ ¬CellInWindow s.cfg k s.cfg.CUR_MAX)

/-! ### Encodings and events -/

/-- R95, R101: decoding the word of a well-formed instruction gives the instruction back, with every operand. -/
def Obligations.DecodeInvertsEncode : Prop :=
  ∀ (c : Config) (i : Instr), c.wf = true → i.wf c = true → decode c (encode c i) = .ok i

/-- R95: the byte opcode map, under any well-formed configuration and with the numbers of CFG_REF. -/
def Obligations.ByteOpcodeMap : Prop :=
  (∀ (c : Config) (b : Byte), c.wf = true →
    (decodeByte c b = .one ↔ b = c.BYTE_ONE) ∧ (decodeByte c b = .zero ↔ b = c.BYTE_ZERO) ∧
    (decodeByte c b = .rowEnd ↔ b = c.BYTE_SEP) ∧ (decodeByte c b = .frameEnd ↔ b = 0x00#8) ∧
    (decodeByte c b = .eot ↔ b = 0x04#8) ∧ (decodeByte c b = .ignore b ↔ b ∉ activeBytes c)) ∧
  activeBytes Config.ref = [0x31#8, 0x30#8, 0x2C#8, 0x00#8, 0x04#8]

/-- Every byte has one meaning: the word of what a byte decodes to is that byte, and it is well-formed. -/
def Obligations.EncodeInvertsByteDecode : Prop :=
  ∀ (c : Config) (b : Byte), (decodeByte c b).wf c = true ∧ encode c (decodeByte c b) = .byte b

/-- Table words written out bit by bit decode to the instructions they stand for: the bits are those of R95 and R101; that
8 bits are read as a byte, 5 as RXV and 3 as TXV, and that the operands of the strobe rows are then 0 (`rxByte 0x00`,
`select 0`, `txPoll false`), is the model's choice (log entry 10), and the byte values are read under CFG_REF (the model's
choice, log entry 1). -/
def Obligations.WordsDecodeAsTheTableSays : Prop :=
  decodeTableWord 8 0b00110001 = some .one ∧ decodeTableWord 8 0b00110000 = some .zero ∧
    decodeTableWord 8 0b00101100 = some .rowEnd ∧ decodeTableWord 8 0b00000000 = some .frameEnd ∧
    decodeTableWord 8 0b00000100 = some .eot ∧ decodeTableWord 8 0b00110010 = some (.ignore 0x32#8) ∧
    decodeTableWord 5 0b01000 = some (.rxByte 0x00#8) ∧ decodeTableWord 5 0b10000 = some (.reset .receiver) ∧
    decodeTableWord 5 0b00100 = some .animTick ∧ decodeTableWord 5 0b00010 = some .pwmTick ∧
    decodeTableWord 5 0b00001 = some .scanStep ∧ decodeTableWord 3 0b100 = some (.reset .sender) ∧
    decodeTableWord 3 0b010 = some (.select 0) ∧ decodeTableWord 3 0b001 = some (.txPoll false)

/-- A step executes the decoded event in the state where its strobe is cleared (a sample with no strobe left is done),
`tx_valid` is 0 and the event counter has advanced; a received byte runs the action its value decodes to. Where nothing
is presented, only those three change. The list of samples and the counter are the model's (log entries 2 and 3). -/
def Obligations.StepRunsTheDecodedEvent : Prop :=
  ∀ s : State, s.cfg.wf = true →
    (s.inputs = [] → step s = .next { s with tx_out := none, event_no := s.event_no + 1 }) ∧
    ∀ p rest, s.inputs = p :: rest →
      (∀ st, p.first = some st →
        decode s.cfg (.sample p) = .ok (p.event s.cfg st) ∧
        step s = exec (p.event s.cfg st)
          { s with
            inputs := if (p.setStrobe false st).first = none then rest else p.setStrobe false st :: rest
            tx_out := none
            event_no := s.event_no + 1 }) ∧
      (p.first = some .rxValid → ∀ u, exec (p.event s.cfg .rxValid) u = exec (decodeByte u.cfg p.rx_data) u) ∧
      (p.first = none → step s = .next { s with inputs := rest, tx_out := none, event_no := s.event_no + 1 })

/-- R238: the events of simultaneous strobes are served one after the other in the fixed order: the sequence of events
that a list of samples stands for loses exactly its first at each fetch. That the receiver's come before the sender's is the
model's choice (log entry 5). -/
def Obligations.StrobesServedInPriorityOrder : Prop :=
  ∀ (c : Config) (inputs rest : List Ports),
    (∀ i, fetch c inputs = (some i, rest) →
      inputs.flatMap (cycleEvents c) = i :: rest.flatMap (cycleEvents c)) ∧
    (fetch c inputs = (none, rest) → inputs.flatMap (cycleEvents c) = rest.flatMap (cycleEvents c))

/-- R238 (and R237): one cycle with k strobes at 1 is the sequence of those k events in the order of R238, each seeing the state the
previous one left. That the receiver's events come before the sender's is the model's choice (log entry 5). -/
def Obligations.CycleIsTheSequenceOfItsEvents : Prop :=
  ∀ (s t : State) (p : Ports) (rest : List Ports),
    s.cfg.wf = true → s.inputs = p :: rest → cycleEvents s.cfg p ≠ [] →
    runEvents (cycleEvents s.cfg p) s = .next t →
    ∃ u, Host.Core.run Sys2Proof.core (cycleEvents s.cfg p).length s = .next u ∧
      u.rx = t.rx ∧ u.tx = t.tx ∧ u.inputs = rest

/-! ### The Protocol Decoder -/

/-- R160: RX_BYTE selects the action by the value of the byte, and a byte is accepted in every state. -/
def Obligations.RxByteSelectsItsAction : Prop :=
  ∀ s : State, s.cfg.wf = true →
    exec (.rxByte s.cfg.BYTE_ONE) s = exec .one s ∧ exec (.rxByte s.cfg.BYTE_ZERO) s = exec .zero s ∧
    exec (.rxByte s.cfg.BYTE_SEP) s = exec .rowEnd s ∧ exec (.rxByte 0x00#8) s = exec .frameEnd s ∧
    exec (.rxByte 0x04#8) s = exec .eot s ∧
    (∀ b, b ∉ activeBytes s.cfg → exec (.rxByte b) s = exec (.ignore b) s) ∧
    ∀ b, ∃ t, exec (.rxByte b) s = .next t

/-- R162: ONE records the point at the cursor, or overflows, or drops the cell; `col` always advances. -/
def Obligations.OneRecordsOverflowsOrDrops : Prop :=
  ∀ s : State, s.cfg.wf = true →
    ∃ t, exec .one s = .next t ∧
      (CellInWindow s.cfg s.rx.row s.rx.col → s.rx.ts < s.cfg.MAX_TIMESTEPS ∧ s.rx.pidx < s.cfg.CAP →
        t.rx.fb.readPoint (!s.rx.live_sel) s.rx.ts s.rx.pidx = some (pinsAt s.cfg s.rx.row s.rx.col) ∧
        (∀ b k i, ¬(b = (!s.rx.live_sel) ∧ k = s.rx.ts ∧ i = s.rx.pidx) →
          t.rx.fb.readPoint b k i = s.rx.fb.readPoint b k i) ∧
        t.rx.pidx = s.rx.pidx + 1 ∧ t.rx.ovf_cnt = s.rx.ovf_cnt) ∧
      (CellInWindow s.cfg s.rx.row s.rx.col → ¬(s.rx.ts < s.cfg.MAX_TIMESTEPS ∧ s.rx.pidx < s.cfg.CAP) →
        t.rx.fb = s.rx.fb ∧ t.rx.pidx = s.rx.pidx ∧
        t.rx.ovf_cnt = if s.rx.ovf_cnt < s.cfg.DIAG_MAX then s.rx.ovf_cnt + 1 else s.cfg.DIAG_MAX) ∧
      (¬CellInWindow s.cfg s.rx.row s.rx.col →
        t.rx.fb = s.rx.fb ∧ t.rx.pidx = s.rx.pidx ∧ t.rx.ovf_cnt = s.rx.ovf_cnt) ∧
      (∀ b k, t.rx.fb.readCount b k = s.rx.fb.readCount b k) ∧
      t = { s with
            rx := { s.rx with
                    fb := t.rx.fb
                    pidx := t.rx.pidx
                    ovf_cnt := t.rx.ovf_cnt
                    col := if s.rx.col < s.cfg.CUR_MAX then s.rx.col + 1 else s.cfg.CUR_MAX
                    after_eot := false } }

/-- R163: ZERO only advances `col`, saturating, and clears `after_eot`. -/
def Obligations.ZeroAdvancesCol : Prop :=
  ∀ s : State,
    exec .zero s = .next { s with
      rx := { s.rx with
              col := if s.rx.col < s.cfg.CUR_MAX then s.rx.col + 1 else s.cfg.CUR_MAX
              after_eot := false } }

/-- R164: ROWEND advances `row`, saturating, returns `col` to 0 and clears `after_eot`. -/
def Obligations.RowEndStartsNextRow : Prop :=
  ∀ s : State,
    exec .rowEnd s = .next { s with
      rx := { s.rx with
              row := if s.rx.row < s.cfg.CUR_MAX then s.rx.row + 1 else s.cfg.CUR_MAX
              col := 0
              after_eot := false } }

/-- R165: FRAMEEND's four cases: the message's final terminator, a malformed terminator, a frame stored, a frame dropped
for want of a slot. -/
def Obligations.FrameEndStoresDropsOrIgnores : Prop :=
  ∀ s : State, ∃ t, exec .frameEnd s = .next t ∧
    (s.rx.row = 0 ∧ s.rx.col = 0 → s.rx.after_eot = true →
      t = { s with rx := { s.rx with after_eot := false } }) ∧
    (s.rx.row = 0 ∧ s.rx.col = 0 → s.rx.after_eot = false →
      t = { s with
            rx := { s.rx with
                    mal_cnt := if s.rx.mal_cnt < s.cfg.DIAG_MAX then s.rx.mal_cnt + 1 else s.cfg.DIAG_MAX } }) ∧
    (¬(s.rx.row = 0 ∧ s.rx.col = 0) → s.rx.ts < s.cfg.MAX_TIMESTEPS →
      t.rx.fb.readCount (!s.rx.live_sel) s.rx.ts = s.rx.pidx ∧
      (∀ b k, ¬(b = (!s.rx.live_sel) ∧ k = s.rx.ts) → t.rx.fb.readCount b k = s.rx.fb.readCount b k) ∧
      (∀ b k i, t.rx.fb.readPoint b k i = s.rx.fb.readPoint b k i) ∧
      t = { s with
            rx := { s.rx with fb := t.rx.fb, ts := s.rx.ts + 1, row := 0, col := 0, pidx := 0, after_eot := false } }) ∧
    (¬(s.rx.row = 0 ∧ s.rx.col = 0) → ¬s.rx.ts < s.cfg.MAX_TIMESTEPS →
      t = { s with
            rx := { s.rx with
                    ovf_cnt := if s.rx.ovf_cnt < s.cfg.DIAG_MAX then s.rx.ovf_cnt + 1 else s.cfg.DIAG_MAX
                    row := 0
                    col := 0
                    pidx := 0
                    after_eot := false } })

/-- R166: EOT publishes: the staged bank becomes live with its count of frames, the whole cursor returns to the origin, and
an unterminated frame counts as malformed. -/
def Obligations.EotPublishesTheStagedPattern : Prop :=
  ∀ s : State, ∃ t, exec .eot s = .next t ∧
    (∀ k, t.rx.liveCount k = s.rx.stagedCount k) ∧ (∀ k i, t.rx.livePoint k i = s.rx.stagedPoint k i) ∧
    (∀ k, t.rx.stagedCount k = s.rx.liveCount k) ∧ (∀ k i, t.rx.stagedPoint k i = s.rx.livePoint k i) ∧
    (s.rx.row = 0 ∧ s.rx.col = 0 → t.rx.mal_cnt = s.rx.mal_cnt) ∧
    (¬(s.rx.row = 0 ∧ s.rx.col = 0) →
      t.rx.mal_cnt = if s.rx.mal_cnt < s.cfg.DIAG_MAX then s.rx.mal_cnt + 1 else s.cfg.DIAG_MAX) ∧
    t = { s with
          rx := { s.rx with
                  mal_cnt := t.rx.mal_cnt
                  live_sel := !s.rx.live_sel
                  maxTimestep := s.rx.ts
                  current_timestep := 0
                  row := 0
                  col := 0
                  pidx := 0
                  ts := 0
                  after_eot := true } }

/-- R167: any byte other than the five changes no state element. -/
def Obligations.IgnoredBytesChangeNothing : Prop :=
  ∀ (s : State) (b : Byte), b ∉ activeBytes s.cfg →
    exec (.ignore b) s = .next s ∧ exec (.rxByte b) s = .next s

/-- R232: BufferOverflow is raised by exactly ONE and FRAMEEND in the cases named, counted once, and the write that would
have exceeded capacity is not made. The premises are bounds every run keeps (StepKeepsTheInvariant). -/
def Obligations.BufferOverflowRaisedExactlyWhenNamed : Prop :=
  ∀ (i : Instr) (s t : State), s.rx.ts ≤ s.cfg.MAX_TIMESTEPS → s.rx.pidx ≤ s.cfg.CAP → i ≠ .reset .receiver →
    exec i s = .next t →
    let overflow :=
      (byteClass s.cfg i = some .one ∧ CellInWindow s.cfg s.rx.row s.rx.col ∧
        (s.rx.ts = s.cfg.MAX_TIMESTEPS ∨ s.rx.pidx = s.cfg.CAP)) ∨
      (byteClass s.cfg i = some .frameEnd ∧ ¬(s.rx.row = 0 ∧ s.rx.col = 0) ∧ s.rx.ts = s.cfg.MAX_TIMESTEPS)
    (overflow → t.rx.ovf_cnt = (if s.rx.ovf_cnt < s.cfg.DIAG_MAX then s.rx.ovf_cnt + 1 else s.cfg.DIAG_MAX) ∧
      t.rx.fb = s.rx.fb ∧ t.rx.ts = s.rx.ts) ∧
    (¬overflow → t.rx.ovf_cnt = s.rx.ovf_cnt)

/-- R233: MalformedFrame is raised by exactly the empty terminator not directly after EOT and the EOT with an unterminated
frame; nothing else is malformed. -/
def Obligations.MalformedFrameRaisedExactlyWhenNamed : Prop :=
  ∀ (i : Instr) (s t : State), i ≠ .reset .receiver → exec i s = .next t →
    let malformed :=
      (byteClass s.cfg i = some .frameEnd ∧ (s.rx.row = 0 ∧ s.rx.col = 0) ∧ s.rx.after_eot = false) ∨
      (byteClass s.cfg i = some .eot ∧ ¬(s.rx.row = 0 ∧ s.rx.col = 0))
    (malformed → t.rx.mal_cnt = (if s.rx.mal_cnt < s.cfg.DIAG_MAX then s.rx.mal_cnt + 1 else s.cfg.DIAG_MAX) ∧
      (byteClass s.cfg i = some .frameEnd → t = { s with rx := { s.rx with mal_cnt := t.rx.mal_cnt } }) ∧
      (byteClass s.cfg i = some .eot → t.rx.live_sel = (!s.rx.live_sel) ∧ t.rx.maxTimestep = s.rx.ts)) ∧
    (¬malformed → t.rx.mal_cnt = s.rx.mal_cnt)

/-- R239: one event raises at most one error class, and a class at most once: of the two counters at most one moves, by at
most one, and only a receiver event moves it; only SELECT reports. -/
def Obligations.OneEventRaisesAtMostOneError : Prop :=
  ∀ (i : Instr) (s t : State), i ≠ .reset .receiver → i ≠ .reset .sender → exec i s = .next t →
    (t.rx.ovf_cnt = s.rx.ovf_cnt ∨ t.rx.mal_cnt = s.rx.mal_cnt) ∧
    t.rx.ovf_cnt ≤ s.rx.ovf_cnt + 1 ∧ t.rx.mal_cnt ≤ s.rx.mal_cnt + 1 ∧
    (t.tx.sel_status ≠ s.tx.sel_status →
      agentOf i = .sel ∧ t.rx.ovf_cnt = s.rx.ovf_cnt ∧ t.rx.mal_cnt = s.rx.mal_cnt)

/-- R241 (its second sentence): the diagnostic counters are sticky and saturate; only RESET clears them. -/
def Obligations.DiagnosticCountersAreSticky : Prop :=
  ∀ (i : Instr) (s t : State), s.rx.ovf_cnt ≤ s.cfg.DIAG_MAX → s.rx.mal_cnt ≤ s.cfg.DIAG_MAX →
    i ≠ .reset .receiver → exec i s = .next t →
    s.rx.ovf_cnt ≤ t.rx.ovf_cnt ∧ t.rx.ovf_cnt ≤ s.cfg.DIAG_MAX ∧
    s.rx.mal_cnt ≤ t.rx.mal_cnt ∧ t.rx.mal_cnt ≤ s.cfg.DIAG_MAX

/-- R73 (4), R74: only EOT and RESET change what SCAN reads; every other event leaves the live bank, its selection and its
count of frames as they are. -/
def Obligations.LivePatternChangesOnlyAtPublish : Prop :=
  ∀ (i : Instr) (s t : State), i ≠ .reset .receiver → byteClass s.cfg i ≠ some .eot → exec i s = .next t →
    t.rx.live_sel = s.rx.live_sel ∧ t.rx.maxTimestep = s.rx.maxTimestep ∧
    (∀ k, t.rx.liveCount k = s.rx.liveCount k) ∧ ∀ k j, t.rx.livePoint k j = s.rx.livePoint k j

/-- R171: after any FRAMEEND, a further FRAMEEND with no data in between writes no count and moves no slot; it only counts
as malformed. -/
def Obligations.SecondTerminatorWritesNoCount : Prop :=
  ∀ s t : State, exec .frameEnd s = .next t →
    ∃ u, exec .frameEnd t = .next u ∧
      (∀ b k, u.rx.fb.readCount b k = t.rx.fb.readCount b k) ∧ u.rx.ts = t.rx.ts ∧
      u.rx.mal_cnt = if t.rx.mal_cnt < t.cfg.DIAG_MAX then t.rx.mal_cnt + 1 else t.cfg.DIAG_MAX

/-- R172: after EOT, and after EOT followed by terminators and ignored bytes, the next cell is attributed to timestep 0,
row 0, column 0. -/
def Obligations.NextCellAfterEotIsAtTheOrigin : Prop :=
  ∀ (s : State) (bs : List Byte), s.cfg.wf = true → (∀ b ∈ bs, b = 0x00#8 ∨ b ∉ activeBytes s.cfg) →
    ∃ t, runEvents (rxBytes (0x04#8 :: bs)) s = .next t ∧ AtMessageStart t.rx ∧
      ∃ u, exec (.rxByte s.cfg.BYTE_ONE) t = .next u ∧
        (CellInWindow s.cfg 0 0 → u.rx.stagedPoint 0 0 = some (pinsAt s.cfg 0 0)) ∧ u.rx.row = 0 ∧ u.rx.col = 1 ∧
        exec (.rxByte s.cfg.BYTE_ZERO) t = .next { t with rx := { t.rx with col := 1, after_eot := false } }

/-- R65: whatever a receiver was decoding, from the byte after an EOT it is synchronised: two receivers of one
configuration have the same cursor from there on. -/
def Obligations.EotSynchronisesTheDecoder : Prop :=
  ∀ (s s' : State) (bs : List Byte), s.cfg.wf = true → s'.cfg = s.cfg →
    ∃ t t', runEvents (rxBytes (0x04#8 :: bs)) s = .next t ∧ runEvents (rxBytes (0x04#8 :: bs)) s' = .next t' ∧
      t'.rx.row = t.rx.row ∧ t'.rx.col = t.rx.col ∧ t'.rx.pidx = t.rx.pidx ∧ t'.rx.ts = t.rx.ts ∧
      t'.rx.after_eot = t.rx.after_eot

/-- R168: decoding is a function of the byte sequence alone: whatever events of other agents stand between the bytes, the
decoder's registers, both banks, `live_sel` and `maxTimestep` end the same as without them. -/
def Obligations.DecodingIgnoresOtherAgents : Prop :=
  ∀ (is : List Instr) (s t : State), (∀ i ∈ is, i ≠ .reset .receiver) → runEvents is s = .next t →
    ∃ u, runEvents (is.filter fun i => decide (agentOf i = .dec)) s = .next u ∧
      u.rx.decoderView = t.rx.decoderView

/-- R174: receivers that differ only in their windows and pin tables, fed the same bytes, agree on everything but `pidx`,
`ovf_cnt` and the bank contents, after every byte. -/
def Obligations.ReceiversOnOneWireAgree : Prop :=
  ∀ (s s' : State) (bs : List Byte), s.cfg.wf = true → s'.cfg.wf = true →
    s'.cfg = { s.cfg with
      ROW_OFFSET := s'.cfg.ROW_OFFSET
      ROW_SPAN := s'.cfg.ROW_SPAN
      COL_OFFSET := s'.cfg.COL_OFFSET
      COL_SPAN := s'.cfg.COL_SPAN
      ROW_PIN := s'.cfg.ROW_PIN
      COL_PIN := s'.cfg.COL_PIN } →
    s'.rx = { s.rx with pidx := s'.rx.pidx, ovf_cnt := s'.rx.ovf_cnt, fb := s'.rx.fb } →
    ∃ t t', runEvents (rxBytes bs) s = .next t ∧ runEvents (rxBytes bs) s' = .next t' ∧
      t'.rx = { t.rx with pidx := t'.rx.pidx, ovf_cnt := t'.rx.ovf_cnt, fb := t'.rx.fb }

/-- R170: decoding the Wire Message of a pattern gives, at every timestep, exactly the lit points whose row and column fall
inside the window, in row-major order. -/
def Obligations.MessageDecodesToTheWindowOfItsPattern : Prop :=
  ∀ (s : State) (p : Pattern), s.cfg.wf = true → (∀ f ∈ p.frames, s.cfg.wfFrame f = true) →
    p.frames.length ≤ s.cfg.MAX_TIMESTEPS → AtMessageStart s.rx →
    ∃ t, runEvents (rxBytes (msg s.cfg p)) s = .next t ∧
      Shows t.rx s.cfg p.frames (fun row col => decide (s.cfg.ROW_OFFSET ≤ row ∧ row < s.cfg.ROW_OFFSET + s.cfg.ROW_SPAN ∧
        s.cfg.COL_OFFSET ≤ col ∧ col < s.cfg.COL_OFFSET + s.cfg.COL_SPAN)) ∧
      AtMessageStart t.rx ∧ t.rx.after_eot = false ∧ t.rx.ovf_cnt = s.rx.ovf_cnt ∧ t.rx.mal_cnt = s.rx.mal_cnt

/-- R169: with a window that covers the whole matrix, decoding the Wire Message of a pattern gives at every timestep the
pattern's lit cells. -/
def Obligations.MessageRoundTripsUnderAFullWindow : Prop :=
  ∀ (s : State) (p : Pattern), s.cfg.wf = true → (∀ f ∈ p.frames, s.cfg.wfFrame f = true) →
    s.cfg.ROW_OFFSET = 0 → s.cfg.ROW_SPAN = s.cfg.ROWS → s.cfg.COL_OFFSET = 0 → s.cfg.COL_SPAN = s.cfg.COLS →
    p.frames.length ≤ s.cfg.MAX_TIMESTEPS → AtMessageStart s.rx →
    ∃ t, runEvents (rxBytes (msg s.cfg p)) s = .next t ∧
      Shows t.rx s.cfg p.frames (fun _ _ => true) ∧
      AtMessageStart t.rx ∧ t.rx.after_eot = false ∧ t.rx.ovf_cnt = s.rx.ovf_cnt ∧ t.rx.mal_cnt = s.rx.mal_cnt

/-! ### The frame buffer -/

/-- Equal memories are equal data: two buffers in the model's canonical form (log entry 7) with the same reads are the
same. -/
def Obligations.CanonicalBuffersWithEqualReadsAreEqual : Prop :=
  ∀ m m' : Memory, m.wf = true → m'.wf = true →
    (∀ b k, m.readCount b k = m'.readCount b k) → (∀ b k i, m.readPoint b k i = m'.readPoint b k i) → m = m'

/-- R93: the packed form of a point has `row_pin` in its high half and `col_pin` in its low half. -/
def Obligations.PackedPointHasRowPinHigh : Prop :=
  ∀ (c : Config) (p : Point), p.row_pin < 2 ^ c.PIN_W → p.col_pin < 2 ^ c.PIN_W →
    ((p.pack c).extractLsb' c.PIN_W c.PIN_W).toNat = p.row_pin ∧
    ((p.pack c).extractLsb' 0 c.PIN_W).toNat = p.col_pin ∧ Point.unpack c (p.pack c) = p

/-! ### The Animation Clock -/

/-- R190: ANIM_TICK writes `current_timestep` only: held at 0, wrapped to 0, or advanced. -/
def Obligations.AnimTickHoldsWrapsOrAdvances : Prop :=
  ∀ s : State,
    exec .animTick s = .next { s with
      rx := { s.rx with
              current_timestep :=
                if s.rx.maxTimestep = 0 then 0
                else if s.rx.current_timestep + 1 ≥ s.rx.maxTimestep then 0
                else s.rx.current_timestep + 1 } }

/-- R191: from timestep 0, where RESET and every publish leave it, the sequence under repeated ticks is
`0, 1, ..., M−1, 0, 1, ...`; for `M = 0` it stays 0. -/
def Obligations.AnimationRepeatsThePattern : Prop :=
  (∀ (s : State) (n : Nat), s.rx.current_timestep = 0 →
    runEvents (List.replicate n .animTick) s = .next { s with
      rx := { s.rx with current_timestep := if s.rx.maxTimestep = 0 then 0 else n % s.rx.maxTimestep } }) ∧
  ∀ s t : State, exec (.reset .receiver) s = .next t ∨ exec .eot s = .next t → t.rx.current_timestep = 0

/-! ### The Scan/Dim Engine -/

/-- R201, R206: SCAN_STEP's three micro-steps, and the ramp inside the end of a pass. -/
def Obligations.ScanStepDeassertsAssertsOrEndsThePass : Prop :=
  ∀ s : State,
    let n := if s.rx.current_timestep < s.rx.maxTimestep then s.rx.fb.readCount s.rx.live_sel s.rx.current_timestep else 0
    (s.rx.scan_lit = true →
      exec .scanStep s = .next { s with
        rx := { s.rx with row_drv := none, col_drv := none, scan_lit := false, scan_i := s.rx.scan_i + 1 } }) ∧
    (s.rx.scan_lit = false → s.rx.scan_i < n →
      ∀ p, s.rx.fb.readPoint s.rx.live_sel s.rx.current_timestep s.rx.scan_i = some p →
        exec .scanStep s = .next { s with
          rx := { s.rx with row_drv := some p.row_pin, col_drv := some p.col_pin, scan_lit := true } }) ∧
    (s.rx.scan_lit = false → n ≤ s.rx.scan_i →
      ∃ t, exec .scanStep s = .next t ∧
        (s.rx.duty_dir = .up → s.cfg.DUTY_MAX ≤ s.rx.duty + s.cfg.DUTY_STEP →
          t.rx.duty = s.cfg.DUTY_MAX ∧ t.rx.duty_dir = .down) ∧
        (s.rx.duty_dir = .up → s.rx.duty + s.cfg.DUTY_STEP < s.cfg.DUTY_MAX →
          t.rx.duty = s.rx.duty + s.cfg.DUTY_STEP ∧ t.rx.duty_dir = .up) ∧
        (s.rx.duty_dir = .down → s.rx.duty ≤ s.cfg.DUTY_MIN + s.cfg.DUTY_STEP →
          t.rx.duty = s.cfg.DUTY_MIN ∧ t.rx.duty_dir = .up) ∧
        (s.rx.duty_dir = .down → s.cfg.DUTY_MIN + s.cfg.DUTY_STEP < s.rx.duty →
          t.rx.duty + s.cfg.DUTY_STEP = s.rx.duty ∧ t.rx.duty_dir = .down) ∧
        (s.cfg.DUTY_MIN ≤ s.rx.duty → s.rx.duty ≤ s.cfg.DUTY_MAX →
          s.cfg.DUTY_MIN ≤ t.rx.duty ∧ t.rx.duty ≤ s.cfg.DUTY_MAX) ∧
        t = { s with rx := { s.rx with duty := t.rx.duty, duty_dir := t.rx.duty_dir, scan_i := 0 } })

/-- Reading an entry that holds no value is a fault, and this is where the two events that read entries stop (R32, R45;
93 U4, U10, U11; log entry 6). -/
def Obligations.ReadingNoValueFaults : Prop :=
  ∀ s : State,
    (s.rx.scan_lit = false → s.rx.current_timestep < s.rx.maxTimestep →
      s.rx.scan_i < s.rx.liveCount s.rx.current_timestep →
      s.rx.livePoint s.rx.current_timestep s.rx.scan_i = none → exec .scanStep s = .fault .unwrittenPoint) ∧
    (s.tx.tx_idle = false → s.tx.txq_count ≤ s.tx.q_idx →
      exec (.txPoll true) s = .fault .unwrittenQueueEntry)

/-- R204: a pass over n points takes 2n + 1 SCAN_STEPs when nothing else intervenes; it lights the points in order, one at a
time, and ends with nothing driven, the duty ramped once and the pass back at point 0. -/
def Obligations.PassLightsEveryPointInOrder : Prop :=
  ∀ (s : State) (ps : List Point),
    s.rx.scan_i = 0 → s.rx.scan_lit = false → s.rx.row_drv = none → s.rx.col_drv = none →
    s.rx.slotCount = ps.length → (∀ k, k < ps.length → s.rx.livePoint s.rx.current_timestep k = ps[k]?) →
    (∀ k p, ps[k]? = some p → ∃ u, runEvents (List.replicate (2 * k + 1) .scanStep) s = .next u ∧
      u.rx = { s.rx with scan_i := k, scan_lit := true, row_drv := some p.row_pin, col_drv := some p.col_pin }) ∧
    (∀ k, k ≤ ps.length → ∃ u, runEvents (List.replicate (2 * k) .scanStep) s = .next u ∧
      u.rx = { s.rx with scan_i := k }) ∧
    ∃ t, runEvents (List.replicate (2 * ps.length + 1) .scanStep) s = .next t ∧
      t.rx = { s.rx with
               duty := (rampAfter s.cfg s.rx.duty s.rx.duty_dir).1
               duty_dir := (rampAfter s.cfg s.rx.duty s.rx.duty_dir).2 }

/-- R208: PWM_TICK counts modulo PWM_PERIOD; a wrap to 0 releases the blanking, then equality with `duty` sets it. -/
def Obligations.PwmTickCountsReleasesAndBlanks : Prop :=
  ∀ s : State, ∃ t, exec .pwmTick s = .next t ∧
    t.rx.pwm_cnt = (s.rx.pwm_cnt + 1) % s.cfg.PWM_PERIOD ∧
    (t.rx.pwm_cnt = s.rx.duty → t.rx.blank = true) ∧
    (t.rx.pwm_cnt ≠ s.rx.duty → t.rx.pwm_cnt = 0 → t.rx.blank = false) ∧
    (t.rx.pwm_cnt ≠ s.rx.duty → t.rx.pwm_cnt ≠ 0 → t.rx.blank = s.rx.blank) ∧
    t = { s with rx := { s.rx with pwm_cnt := t.rx.pwm_cnt, blank := t.rx.blank } }

/-- R209: with `duty` constant at d, once the counter has wrapped, the rows are enabled exactly while `pwm_cnt` is below d;
the blanking touches nothing of the scan. -/
def Obligations.RowsEnabledForDutyCounts : Prop :=
  ∀ (s : State) (n : Nat), 1 ≤ s.rx.duty → s.rx.duty < s.cfg.PWM_PERIOD → s.rx.pwm_cnt < s.cfg.PWM_PERIOD →
    s.cfg.PWM_PERIOD ≤ s.rx.pwm_cnt + n →
    ∃ t, runEvents (List.replicate n .pwmTick) s = .next t ∧
      t.rx.pwm_cnt = (s.rx.pwm_cnt + n) % s.cfg.PWM_PERIOD ∧ (t.rx.blank = false ↔ t.rx.pwm_cnt < s.rx.duty) ∧
      t = { s with rx := { s.rx with pwm_cnt := t.rx.pwm_cnt, blank := t.rx.blank } }

/-- R50, R51: a row line is asserted exactly when it is driven and not blanked, a column line exactly when it is driven. -/
def Obligations.LinesFollowTheDriversAndTheBlanking : Prop :=
  ∀ (s : State) (p : Nat),
    (p ∈ s.cfg.ROW_PIN → (s.rowOut p = true ↔ s.rx.row_drv = some p ∧ s.rx.blank = false)) ∧
    (p ∈ s.cfg.COL_PIN → (s.colOut p = true ↔ s.rx.col_drv = some p)) ∧
    ∀ r c, s.ledLit r c = true ↔ s.rowOut r = true ∧ s.colOut c = true

/-- R210: an LED is lit exactly when its pins are driven and the rows are not blanked, and at most one is lit. The premise
is part of the invariant every run keeps (StepKeepsTheInvariant). -/
def Obligations.AtMostOneLedIsLit : Prop :=
  ∀ s : State, ScanInv s.cfg s.rx →
    (∀ r c, s.ledLit r c = true ↔ s.rx.row_drv = some r ∧ s.rx.col_drv = some c ∧ s.rx.blank = false) ∧
    ∀ r c r' c', s.ledLit r c = true → s.ledLit r' c' = true → r = r' ∧ c = c'

/-! ### The Frame Encoder and the Transmit Pump -/

/-- R121 to R123: SELECT refuses an index outside the library first, then a request during a transmission, each time
writing the status only; otherwise it loads the queue and arms the pump. -/
def Obligations.SelectRefusesOrArms : Prop :=
  ∀ (s : State) (i : Nat),
    (s.cfg.NUM_PATTERNS ≤ i →
      exec (.select i) s = .next { s with tx := { s.tx with sel_status := .invalidPatternIndex } }) ∧
    (i < s.cfg.NUM_PATTERNS → s.tx.tx_idle = false →
      exec (.select i) s = .next { s with tx := { s.tx with sel_status := .transmissionInProgress } }) ∧
    (∀ p, s.cfg.PATTERNS[i]? = some p → s.tx.tx_idle = true →
      ∃ t, exec (.select i) s = .next t ∧
        t.tx.txq_count = p.frames.length + 1 ∧
        (∀ k f, p.frames[k]? = some f → t.tx.entry k = some (frameStr s.cfg f)) ∧
        t.tx.entry p.frames.length = some [0x04#8] ∧ (∀ k, p.frames.length < k → t.tx.entry k = none) ∧
        t.tx.q_idx = 0 ∧ t.tx.byte_offset = 0 ∧ t.tx.tx_idle = false ∧ t.tx.sel_status = .ok ∧
        t = { s with tx := t.tx }) ∧
    (∀ t, exec (.select i) s = .next t →
      t.selStatusOut =
        if s.cfg.NUM_PATTERNS ≤ i then 0b01#2 else if s.tx.tx_idle = false then 0b10#2 else 0b00#2)

/-- R124: Encode gives one entry per frame, the frame's cells row by row with a separator between rows and none after the
last, and the terminal entry `[0x04]`. -/
def Obligations.EncodeLaysFramesOutRowByRow : Prop :=
  ∀ (c : Config) (p : Pattern), c.wf = true → c.wfPattern p = true →
    (encodePattern c p).length = p.frames.length + 1 ∧
    (encodePattern c p)[p.frames.length]? = some [0x04#8] ∧
    ∀ (k : Nat) (f : Frame), p.frames[k]? = some f →
      ∃ str : List Byte, (encodePattern c p)[k]? = some str ∧ str.length = c.ROWS * c.COLS + c.ROWS - 1 ∧
        (∀ row col, row < c.ROWS → col < c.COLS →
          str[row * (c.COLS + 1) + col]? = some (if lit f row col = true then c.BYTE_ONE else c.BYTE_ZERO)) ∧
        ∀ row, row + 1 < c.ROWS → str[row * (c.COLS + 1) + c.COLS]? = some c.BYTE_SEP

/-- R141: TX_POLL does nothing when not ready or idle; at the end of a string it emits the terminator and moves to the next
string, or goes idle after the last; else it emits the string's next byte. -/
def Obligations.TxPollEmitsTheNextByte : Prop :=
  ∀ s : State,
    exec (.txPoll false) s = .next s ∧
    (s.tx.tx_idle = true → exec (.txPoll true) s = .next s) ∧
    ∀ str : List Byte, s.tx.tx_idle = false → s.tx.entry s.tx.q_idx = some str →
      (s.tx.byte_offset = str.length → s.tx.q_idx + 1 = s.tx.txq_count →
        exec (.txPoll true) s = .next { s with
          tx := { s.tx with byte_offset := 0, q_idx := 0, tx_idle := true }, tx_out := some 0x00#8 }) ∧
      (s.tx.byte_offset = str.length → s.tx.q_idx + 1 ≠ s.tx.txq_count →
        exec (.txPoll true) s = .next { s with
          tx := { s.tx with byte_offset := 0, q_idx := s.tx.q_idx + 1 }, tx_out := some 0x00#8 }) ∧
      (∀ b, str[s.tx.byte_offset]? = some b →
        exec (.txPoll true) s = .next { s with
          tx := { s.tx with byte_offset := s.tx.byte_offset + 1 }, tx_out := some b })

/-- R142: `tx_valid` is 1 after exactly the steps whose event is a TX_POLL that emits, and `tx_data` is then the byte
emitted; after every other step `tx_valid` is 0. -/
def Obligations.TxValidOnlyInAnEmittingPoll : Prop :=
  ∀ s t : State, step s = .next t →
    (t.txValid = true ↔ (fetch s.cfg s.inputs).1 = some (.txPoll true) ∧ s.tx.tx_idle = false) ∧
    (t.txValid = true → ∀ str : List Byte, s.tx.entry s.tx.q_idx = some str →
      some t.txData = if s.tx.byte_offset = str.length then some 0x00#8 else str[s.tx.byte_offset]?)

/-- R146: from an accepted SELECT(i), the bytes emitted are the Wire Message of pattern i, one for each ready poll, whatever
not-ready polls and events of other agents, refused SELECTs among them, stand between (a RESET of the sender ends the
transmission, R260); with polls alone the pump is idle again exactly when all bytes are out. -/
def Obligations.TransmissionEmitsTheWireMessage : Prop :=
  ∀ (s t : State) (i : Nat) (p : Pattern),
    s.cfg.wf = true → s.cfg.PATTERNS[i]? = some p → s.tx.tx_idle = true → exec (.select i) s = .next t →
    (msg s.cfg p).length = p.frames.length * (s.cfg.ROWS * s.cfg.COLS + s.cfg.ROWS) + 2 ∧
    (∀ (is : List Instr) (bs : List Byte) (u : State),
      (∀ e ∈ is, e ≠ .reset .sender) → is.countP isReadyPoll ≤ (msg s.cfg p).length → emitRun is t = some (bs, u) →
      bs = (msg s.cfg p).take (is.countP isReadyPoll) ∧
      (is.countP isReadyPoll < (msg s.cfg p).length → u.tx.tx_idle = false)) ∧
    ∀ polls : List Bool, ∃ u,
      emitRun (polls.map .txPoll) t = some ((msg s.cfg p).take (polls.count true), u) ∧
      (u.tx.tx_idle = true ↔ (msg s.cfg p).length ≤ polls.count true)

/-- R147: a new SELECT is refused from the accepted one up to the event before the last terminator, and accepted after
it. -/
def Obligations.ReselectAcceptedOnlyAfterTheLastTerminator : Prop :=
  ∀ (s t u : State) (i j : Nat) (p : Pattern) (polls : List Bool) (bs : List Byte),
    s.cfg.wf = true → s.cfg.PATTERNS[i]? = some p → s.tx.tx_idle = true → exec (.select i) s = .next t →
    emitRun (polls.map .txPoll) t = some (bs, u) → j < s.cfg.NUM_PATTERNS →
    ∃ v, exec (.select j) u = .next v ∧
      (polls.count true < (msg s.cfg p).length → v = { u with tx := { u.tx with sel_status := .transmissionInProgress } }) ∧
      ((msg s.cfg p).length ≤ polls.count true → v.tx.sel_status = .ok ∧ v.tx.tx_idle = false)

/-- A pattern selected at the sender reaches the receiver's live bank, over a wire that delivers every byte in order
(92 D32; log entry 13): R146 and R170 joined. Equal geometry of sender and receiver is assumed (R263, 93 U22):
that one State has one configuration for both is the model's choice (log entry 12). -/
def Obligations.SelectedPatternReachesTheLiveBank : Prop :=
  ∀ (s : State) (i : Nat) (p : Pattern),
    s.cfg.wf = true → s.cfg.PATTERNS[i]? = some p → p.frames.length ≤ s.cfg.MAX_TIMESTEPS →
    s.tx.tx_idle = true → AtMessageStart s.rx →
    ∃ t bs u v, exec (.select i) s = .next t ∧
      emitRun (List.replicate (msg s.cfg p).length (.txPoll true)) t = some (bs, u) ∧
      runEvents (rxBytes bs) u = .next v ∧ v.tx.tx_idle = true ∧
      Shows v.rx s.cfg p.frames (fun row col => decide (s.cfg.ROW_OFFSET ≤ row ∧ row < s.cfg.ROW_OFFSET + s.cfg.ROW_SPAN ∧
        s.cfg.COL_OFFSET ≤ col ∧ col < s.cfg.COL_OFFSET + s.cfg.COL_SPAN))

/-! ### The whole machine -/

/-- R53, the writers' column: what no event but its writer's, and RESET of its sub-block, changes; nobody writes the
live bank; nothing writes the parameters or the samples to come. -/
def Obligations.EachStateElementHasItsWriters : Prop :=
  ∀ (i : Instr) (s t : State), exec i s = .next t →
    (agentOf i ≠ .dec → agentOf i ≠ .rst .receiver → t.rx.decoderView = s.rx.decoderView) ∧
    (agentOf i = .dec → byteClass s.cfg i ≠ some .eot →
      (∀ k, t.rx.liveCount k = s.rx.liveCount k) ∧ (∀ k j, t.rx.livePoint k j = s.rx.livePoint k j) ∧
      t.rx.live_sel = s.rx.live_sel ∧ t.rx.maxTimestep = s.rx.maxTimestep ∧
      t.rx.current_timestep = s.rx.current_timestep) ∧
    (byteClass s.cfg i = some .eot → t.rx.fb = s.rx.fb ∧ t.rx.current_timestep = 0) ∧
    (agentOf i ≠ .dec → agentOf i ≠ .anim → agentOf i ≠ .rst .receiver →
      t.rx.current_timestep = s.rx.current_timestep) ∧
    (agentOf i ≠ .scan → agentOf i ≠ .rst .receiver →
      t.rx.scan_i = s.rx.scan_i ∧ t.rx.scan_lit = s.rx.scan_lit ∧ t.rx.row_drv = s.rx.row_drv ∧
      t.rx.col_drv = s.rx.col_drv ∧ t.rx.duty = s.rx.duty ∧ t.rx.duty_dir = s.rx.duty_dir) ∧
    (agentOf i ≠ .pwm → agentOf i ≠ .rst .receiver → t.rx.pwm_cnt = s.rx.pwm_cnt ∧ t.rx.blank = s.rx.blank) ∧
    (agentOf i ≠ .sel → agentOf i ≠ .rst .sender →
      t.tx.txq = s.tx.txq ∧ t.tx.txq_count = s.tx.txq_count ∧ t.tx.sel_status = s.tx.sel_status) ∧
    (agentOf i ≠ .sel → agentOf i ≠ .txp → agentOf i ≠ .rst .sender →
      t.tx.q_idx = s.tx.q_idx ∧ t.tx.byte_offset = s.tx.byte_offset ∧ t.tx.tx_idle = s.tx.tx_idle) ∧
    t.cfg = s.cfg ∧ t.inputs = s.inputs

/-- R2: sender and receiver share no state: an event of one changes nothing of the other and does the same whatever the
other's state is. -/
def Obligations.SenderAndReceiverAreIndependent : Prop :=
  ∀ (i : Instr) (s t : State), exec i s = .next t →
    (onReceiver i = true → t.tx = s.tx ∧ t.tx_out = s.tx_out ∧
      ∀ x : Sender, exec i { s with tx := x } = .next { t with tx := x }) ∧
    (onReceiver i = false → t.rx = s.rx ∧
      ∀ r : Receiver, exec i { s with rx := r } = .next { t with rx := r })

/-- The order in which a receiver event and a sender event are taken makes no difference (log entry 5 rests on this). -/
def Obligations.ReceiverAndSenderEventsCommute : Prop :=
  ∀ (i j : Instr) (s t u : State), onReceiver i = true → onReceiver j = false →
    exec i s = .next t → exec j t = .next u →
    ∃ t', exec j s = .next t' ∧ exec i t' = .next u

/-- The reset state has the invariant, under every well-formed configuration and whatever the environment will present. -/
def Obligations.ResetHasTheInvariant : Prop :=
  ∀ (c : Config) (inputs : List Ports), c.wf = true → StateInv (State.resetWith c inputs)

/-- Every step keeps the invariant: the ranges of R22 to R48, the buffer's canonical form and contents (R31, R32, R70, R71),
`current_timestep < maxTimestep` or both 0 (R35), at most one line of each kind driven (R39), the duty bounds (R206), the
pump at a valid place of its queue (R48). -/
def Obligations.StepKeepsTheInvariant : Prop :=
  ∀ s t : State, StateInv s → step s = .next t → StateInv t

/-- R70: in a state with the invariant no read is of an unwritten entry: no step stops. -/
def Obligations.NoStepStopsUnderTheInvariant : Prop :=
  ∀ s : State, StateInv s → ∃ t, step s = .next t

/-- R70, R71, R35, R39 of every state reachable from RESET under any configuration and any inputs: the machine goes on,
`pidx` and every count fit the window and a slot, and every point SCAN may read is written. -/
def Obligations.EveryReachableStateIsSafe : Prop :=
  ∀ s : State, Reachable s →
    (∃ t, step s = .next t) ∧
    s.rx.pidx ≤ s.cfg.ROW_SPAN * s.cfg.COL_SPAN ∧ s.cfg.ROW_SPAN * s.cfg.COL_SPAN ≤ s.cfg.CAP ∧
    (∀ b k, s.rx.fb.readCount b k ≤ s.cfg.CAP) ∧
    (∀ k i, k < s.rx.maxTimestep → i < s.rx.liveCount k → s.rx.livePoint k i ≠ none) ∧
    (s.rx.current_timestep < s.rx.maxTimestep ∨ s.rx.maxTimestep = 0 ∧ s.rx.current_timestep = 0) ∧
    (s.rx.row_drv = none ↔ s.rx.col_drv = none)
end

