-- ==== Sys2Proof/Laws/Config.lean ====
section
/-! SUPPORT. What a well-formed configuration gives, the window and pin-table lemmas, and the saturating increment. -/

namespace Sys2Proof

namespace Config

variable {c : Config}

theorem wf_geometry (h : c.wf = true) :
    1 ≤ c.CUR_W ∧ 1 ≤ c.ROWS ∧ c.ROWS ≤ c.CUR_MAX ∧ 1 ≤ c.COLS ∧ c.COLS ≤ c.CUR_MAX := by
  simp only [wf, wfGeometry, Bool.and_eq_true, decide_eq_true_eq] at h
  tauto

theorem wf_capacity (h : c.wf = true) : 1 ≤ c.MAX_TIMESTEPS ∧ 1 ≤ c.DIAG_W := by
  simp only [wf, wfCapacity, Bool.and_eq_true, decide_eq_true_eq] at h
  tauto

theorem wf_window (h : c.wf = true) :
    c.ROW_OFFSET + c.ROW_SPAN ≤ c.ROWS ∧ c.COL_OFFSET + c.COL_SPAN ≤ c.COLS := by
  simp only [wf, wfWindow, Bool.and_eq_true, decide_eq_true_eq] at h
  tauto

theorem wf_pins (h : c.wf = true) :
    1 ≤ c.PIN_W ∧ c.ROW_PIN.length = c.ROW_SPAN ∧ c.COL_PIN.length = c.COL_SPAN ∧
      (∀ p ∈ c.ROW_PIN ++ c.COL_PIN, p < 2 ^ c.PIN_W) ∧ (c.ROW_PIN ++ c.COL_PIN).Nodup := by
  simp only [wf, wfPins, Bool.and_eq_true, decide_eq_true_eq, List.all_eq_true] at h
  tauto

theorem wf_duty (h : c.wf = true) :
    1 ≤ c.PWM_W ∧ c.DUTY_MIN ≤ c.DUTY_MAX ∧ c.DUTY_MAX ≤ c.PWM_PERIOD - 1 ∧ 1 ≤ c.DUTY_STEP := by
  simp only [wf, wfDuty, Bool.and_eq_true, decide_eq_true_eq] at h
  tauto

theorem wfFrame_iff {f : Frame} : c.wfFrame f = true ↔ f.length = c.ROWS ∧ ∀ row ∈ f, row.length = c.COLS := by
  simp only [wfFrame, Bool.and_eq_true, decide_eq_true_eq, List.all_eq_true]

theorem wfPattern_iff {p : Pattern} :
    c.wfPattern p = true ↔ p.frames.length ≤ c.MAX_FRAMES ∧ ∀ f ∈ p.frames, c.wfFrame f = true := by
  simp only [wfPattern, Bool.and_eq_true, decide_eq_true_eq, List.all_eq_true]

theorem wf_library (h : c.wf = true) :
    1 ≤ c.SEL_W ∧ c.NUM_PATTERNS ≤ 2 ^ c.SEL_W ∧ ∀ p ∈ c.PATTERNS, c.wfPattern p = true := by
  simp only [wf, wfLibrary, Bool.and_eq_true, decide_eq_true_eq, List.all_eq_true] at h
  tauto

theorem wf_bytes (h : c.wf = true) :
    [c.BYTE_ONE, c.BYTE_ZERO, c.BYTE_SEP, BYTE_FRAME_END, BYTE_EOT].Nodup := by
  simp only [wf, wfBytes, Bool.and_eq_true, decide_eq_true_eq] at h
  exact h.2

theorem cur_max_pos (h : c.wf = true) : 1 ≤ c.CUR_MAX :=
  le_trans (wf_geometry h).2.1 (wf_geometry h).2.2.1

/-- The window's cells fit a slot (R71). -/
theorem window_le_cap (h : c.wf = true) : c.ROW_SPAN * c.COL_SPAN ≤ c.CAP :=
  Nat.mul_le_mul (le_trans (Nat.le_add_left _ _) (wf_window h).1) (le_trans (Nat.le_add_left _ _) (wf_window h).2)

/-- The class of each of the five bytes with an action (R95). -/
theorem classify_bytes (h : c.wf = true) :
    classify c c.BYTE_ONE = .one ∧ classify c c.BYTE_ZERO = .zero ∧ classify c c.BYTE_SEP = .rowEnd ∧
      classify c BYTE_FRAME_END = .frameEnd ∧ classify c BYTE_EOT = .eot := by
  have hb := wf_bytes h
  simp only [List.nodup_cons, List.mem_cons, List.not_mem_nil, or_false, not_or] at hb
  obtain ⟨⟨h1, h2, h3, h4⟩, ⟨h5, h6, h7⟩, ⟨h8, h9⟩, -⟩ := hb
  refine ⟨by simp [classify], ?_, ?_, ?_, ?_⟩
  · simp [classify, Ne.symm h1]
  · simp [classify, Ne.symm h2, Ne.symm h5]
  · simp [classify, Ne.symm h3, Ne.symm h6, Ne.symm h8]
  · simp [classify, Ne.symm h4, Ne.symm h7, Ne.symm h9, show ¬BYTE_EOT = BYTE_FRAME_END by decide]

/-- Every other byte is IGNORE (R95, R167). -/
theorem classify_ignore {b : Byte} (h : b ∉ Machine.activeBytes c) : classify c b = .ignore := by
  simp only [Machine.activeBytes, List.mem_cons, List.not_mem_nil, or_false, not_or] at h
  simp [classify, h]

/-- The class of a byte, with the byte it names (R95). -/
theorem classify_cases (c : Config) (b : Byte) :
    (classify c b = .one ∧ b = c.BYTE_ONE) ∨ (classify c b = .zero ∧ b = c.BYTE_ZERO) ∨
      (classify c b = .rowEnd ∧ b = c.BYTE_SEP) ∨ (classify c b = .frameEnd ∧ b = BYTE_FRAME_END) ∨
      (classify c b = .eot ∧ b = BYTE_EOT) ∨ (classify c b = .ignore ∧ b ∉ Machine.activeBytes c) := by
  by_cases h1 : b = c.BYTE_ONE
  · exact .inl ⟨by simp [classify, h1], h1⟩
  by_cases h2 : b = c.BYTE_ZERO
  · exact .inr (.inl ⟨by simp [classify, h1, ← h2], h2⟩)
  by_cases h3 : b = c.BYTE_SEP
  · exact .inr (.inr (.inl ⟨by simp [classify, h1, h2, ← h3], h3⟩))
  by_cases h4 : b = BYTE_FRAME_END
  · exact .inr (.inr (.inr (.inl ⟨by unfold classify; rw [if_neg h1, if_neg h2, if_neg h3, if_pos h4], h4⟩)))
  by_cases h5 : b = BYTE_EOT
  · exact .inr (.inr (.inr (.inr (.inl ⟨by
      unfold classify; rw [if_neg h1, if_neg h2, if_neg h3, if_neg h4, if_pos h5], h5⟩))))
  · refine .inr (.inr (.inr (.inr (.inr ⟨by
      unfold classify; rw [if_neg h1, if_neg h2, if_neg h3, if_neg h4, if_neg h5], ?_⟩))))
    simp [Machine.activeBytes, h1, h2, h3, h4, h5]

end Config

namespace Machine

theorem satInc_le (N v : Nat) : satInc N v ≤ N := by
  unfold satInc; split <;> omega

theorem satInc_pos {N : Nat} (hN : 1 ≤ N) (v : Nat) : 1 ≤ satInc N v := by
  unfold satInc; split <;> omega

theorem le_satInc {N v : Nat} (h : v ≤ N) : v ≤ satInc N v := by
  unfold satInc; split <;> omega

theorem satInc_of_lt {N v : Nat} (h : v < N) : satInc N v = v + 1 := if_pos h

theorem satInc_of_not_lt {N v : Nat} (h : ¬v < N) : satInc N v = N := if_neg h

theorem inWindow_iff {c : Config} {row col : Nat} :
    inWindow c row col = true ↔
      (c.ROW_OFFSET ≤ row ∧ row < c.ROW_OFFSET + c.ROW_SPAN) ∧
        c.COL_OFFSET ≤ col ∧ col < c.COL_OFFSET + c.COL_SPAN := by
  simp only [inWindow, Bool.and_eq_true, decide_eq_true_eq]
  tauto

/-- Both table indices are in range where the window predicate holds (R69). -/
theorem windowPoint_of_inWindow {c : Config} (h : c.wf = true) {row col : Nat} (hw : inWindow c row col = true) :
    windowPoint c row col = some (pinsAt c row col) := by
  obtain ⟨⟨h1, h2⟩, h3, h4⟩ := inWindow_iff.1 hw
  obtain ⟨-, hr, hc, -⟩ := Config.wf_pins h
  have hr' : row - c.ROW_OFFSET < c.ROW_PIN.length := by omega
  have hc' : col - c.COL_OFFSET < c.COL_PIN.length := by omega
  simp only [windowPoint, pinsAt, List.getElem?_eq_getElem hr', List.getElem?_eq_getElem hc', List.getD_eq_getElem?_getD,
    Option.getD_some]

/-- The pins of a window cell are in the pin tables. -/
theorem pinsAt_mem {c : Config} (h : c.wf = true) {row col : Nat} (hw : inWindow c row col = true) :
    (pinsAt c row col).row_pin ∈ c.ROW_PIN ∧ (pinsAt c row col).col_pin ∈ c.COL_PIN := by
  obtain ⟨⟨h1, h2⟩, h3, h4⟩ := inWindow_iff.1 hw
  obtain ⟨-, hr, hc, -⟩ := Config.wf_pins h
  have hr' : row - c.ROW_OFFSET < c.ROW_PIN.length := by omega
  have hc' : col - c.COL_OFFSET < c.COL_PIN.length := by omega
  simp only [pinsAt, List.getElem?_eq_getElem hr', List.getElem?_eq_getElem hc', List.getD_eq_getElem?_getD,
    Option.getD_some]
  exact ⟨List.getElem_mem _, List.getElem_mem _⟩

end Machine

end Sys2Proof
end

