-- ==== Sys2Proof/Laws/State.lean ====
section
/-! SUPPORT. One lemma per field per update, so that no later proof unfolds a record update. -/

namespace Sys2Proof.Machine

namespace State

@[simp] theorem setRx_cfg (s : State) (r : Receiver) : (s.setRx r).cfg = s.cfg := rfl
@[simp] theorem setRx_rx (s : State) (r : Receiver) : (s.setRx r).rx = r := rfl
@[simp] theorem setRx_tx (s : State) (r : Receiver) : (s.setRx r).tx = s.tx := rfl
@[simp] theorem setRx_inputs (s : State) (r : Receiver) : (s.setRx r).inputs = s.inputs := rfl
@[simp] theorem setRx_tx_out (s : State) (r : Receiver) : (s.setRx r).tx_out = s.tx_out := rfl
@[simp] theorem setRx_event_no (s : State) (r : Receiver) : (s.setRx r).event_no = s.event_no := rfl

@[simp] theorem setTx_cfg (s : State) (x : Sender) : (s.setTx x).cfg = s.cfg := rfl
@[simp] theorem setTx_rx (s : State) (x : Sender) : (s.setTx x).rx = s.rx := rfl
@[simp] theorem setTx_tx (s : State) (x : Sender) : (s.setTx x).tx = x := rfl
@[simp] theorem setTx_inputs (s : State) (x : Sender) : (s.setTx x).inputs = s.inputs := rfl
@[simp] theorem setTx_tx_out (s : State) (x : Sender) : (s.setTx x).tx_out = s.tx_out := rfl
@[simp] theorem setTx_event_no (s : State) (x : Sender) : (s.setTx x).event_no = s.event_no := rfl

@[simp] theorem beginEvent_cfg (s : State) (rest : List Ports) : (s.beginEvent rest).cfg = s.cfg := rfl
@[simp] theorem beginEvent_rx (s : State) (rest : List Ports) : (s.beginEvent rest).rx = s.rx := rfl
@[simp] theorem beginEvent_tx (s : State) (rest : List Ports) : (s.beginEvent rest).tx = s.tx := rfl
@[simp] theorem beginEvent_inputs (s : State) (rest : List Ports) : (s.beginEvent rest).inputs = rest := rfl
@[simp] theorem beginEvent_tx_out (s : State) (rest : List Ports) : (s.beginEvent rest).tx_out = none := rfl
@[simp] theorem beginEvent_event_no (s : State) (rest : List Ports) : (s.beginEvent rest).event_no =
    s.event_no + 1 := rfl

@[simp] theorem emit_cfg (s : State) (b : Byte) : (s.emit b).cfg = s.cfg := rfl
@[simp] theorem emit_rx (s : State) (b : Byte) : (s.emit b).rx = s.rx := rfl
@[simp] theorem emit_tx (s : State) (b : Byte) : (s.emit b).tx = s.tx := rfl
@[simp] theorem emit_inputs (s : State) (b : Byte) : (s.emit b).inputs = s.inputs := rfl
@[simp] theorem emit_tx_out (s : State) (b : Byte) : (s.emit b).tx_out = some b := rfl
@[simp] theorem emit_event_no (s : State) (b : Byte) : (s.emit b).event_no = s.event_no := rfl

@[simp] theorem nextCol_cfg (s : State) : (s.nextCol).cfg = s.cfg := rfl
@[simp] theorem nextCol_rx (s : State) : (s.nextCol).rx =
    { s.rx with col := satInc s.cfg.CUR_MAX s.rx.col, after_eot := false } := rfl
@[simp] theorem nextCol_tx (s : State) : (s.nextCol).tx = s.tx := rfl
@[simp] theorem nextCol_inputs (s : State) : (s.nextCol).inputs = s.inputs := rfl
@[simp] theorem nextCol_tx_out (s : State) : (s.nextCol).tx_out = s.tx_out := rfl
@[simp] theorem nextCol_event_no (s : State) : (s.nextCol).event_no = s.event_no := rfl

@[simp] theorem nextRow_cfg (s : State) : (s.nextRow).cfg = s.cfg := rfl
@[simp] theorem nextRow_rx (s : State) : (s.nextRow).rx =
    { s.rx with row := satInc s.cfg.CUR_MAX s.rx.row, col := 0, after_eot := false } := rfl
@[simp] theorem nextRow_tx (s : State) : (s.nextRow).tx = s.tx := rfl
@[simp] theorem nextRow_inputs (s : State) : (s.nextRow).inputs = s.inputs := rfl
@[simp] theorem nextRow_tx_out (s : State) : (s.nextRow).tx_out = s.tx_out := rfl
@[simp] theorem nextRow_event_no (s : State) : (s.nextRow).event_no = s.event_no := rfl

@[simp] theorem recordPoint_cfg (s : State) (p : Point) : (s.recordPoint p).cfg = s.cfg := rfl
@[simp] theorem recordPoint_rx (s : State) (p : Point) : (s.recordPoint p).rx =
    { s.rx with fb := s.rx.fb.writePoint s.rx.stage s.rx.ts s.rx.pidx p, pidx := s.rx.pidx + 1 } := rfl
@[simp] theorem recordPoint_tx (s : State) (p : Point) : (s.recordPoint p).tx = s.tx := rfl
@[simp] theorem recordPoint_inputs (s : State) (p : Point) : (s.recordPoint p).inputs = s.inputs := rfl
@[simp] theorem recordPoint_tx_out (s : State) (p : Point) : (s.recordPoint p).tx_out = s.tx_out := rfl
@[simp] theorem recordPoint_event_no (s : State) (p : Point) : (s.recordPoint p).event_no = s.event_no := rfl

@[simp] theorem storeCount_cfg (s : State) : (s.storeCount).cfg = s.cfg := rfl
@[simp] theorem storeCount_rx (s : State) : (s.storeCount).rx =
    { s.rx with fb := s.rx.fb.writeCount s.rx.stage s.rx.ts s.rx.pidx, ts := s.rx.ts + 1 } := rfl
@[simp] theorem storeCount_tx (s : State) : (s.storeCount).tx = s.tx := rfl
@[simp] theorem storeCount_inputs (s : State) : (s.storeCount).inputs = s.inputs := rfl
@[simp] theorem storeCount_tx_out (s : State) : (s.storeCount).tx_out = s.tx_out := rfl
@[simp] theorem storeCount_event_no (s : State) : (s.storeCount).event_no = s.event_no := rfl

@[simp] theorem startFrame_cfg (s : State) : (s.startFrame).cfg = s.cfg := rfl
@[simp] theorem startFrame_rx (s : State) : (s.startFrame).rx =
    { s.rx with row := 0, col := 0, pidx := 0, after_eot := false } := rfl
@[simp] theorem startFrame_tx (s : State) : (s.startFrame).tx = s.tx := rfl
@[simp] theorem startFrame_inputs (s : State) : (s.startFrame).inputs = s.inputs := rfl
@[simp] theorem startFrame_tx_out (s : State) : (s.startFrame).tx_out = s.tx_out := rfl
@[simp] theorem startFrame_event_no (s : State) : (s.startFrame).event_no = s.event_no := rfl

@[simp] theorem clearAfterEot_cfg (s : State) : (s.clearAfterEot).cfg = s.cfg := rfl
@[simp] theorem clearAfterEot_rx (s : State) : (s.clearAfterEot).rx = { s.rx with after_eot := false } := rfl
@[simp] theorem clearAfterEot_tx (s : State) : (s.clearAfterEot).tx = s.tx := rfl
@[simp] theorem clearAfterEot_inputs (s : State) : (s.clearAfterEot).inputs = s.inputs := rfl
@[simp] theorem clearAfterEot_tx_out (s : State) : (s.clearAfterEot).tx_out = s.tx_out := rfl
@[simp] theorem clearAfterEot_event_no (s : State) : (s.clearAfterEot).event_no = s.event_no := rfl

@[simp] theorem publish_cfg (s : State) : (s.publish).cfg = s.cfg := rfl
@[simp] theorem publish_rx (s : State) : (s.publish).rx =
    { s.rx with live_sel := !s.rx.live_sel, maxTimestep := s.rx.ts, current_timestep := 0, row := 0, col := 0, pidx := 0, ts := 0, after_eot := true } := rfl
@[simp] theorem publish_tx (s : State) : (s.publish).tx = s.tx := rfl
@[simp] theorem publish_inputs (s : State) : (s.publish).inputs = s.inputs := rfl
@[simp] theorem publish_tx_out (s : State) : (s.publish).tx_out = s.tx_out := rfl
@[simp] theorem publish_event_no (s : State) : (s.publish).event_no = s.event_no := rfl

@[simp] theorem showTimestep_cfg (s : State) (t : Nat) : (s.showTimestep t).cfg = s.cfg := rfl
@[simp] theorem showTimestep_rx (s : State) (t : Nat) : (s.showTimestep t).rx =
    { s.rx with current_timestep := t } := rfl
@[simp] theorem showTimestep_tx (s : State) (t : Nat) : (s.showTimestep t).tx = s.tx := rfl
@[simp] theorem showTimestep_inputs (s : State) (t : Nat) : (s.showTimestep t).inputs = s.inputs := rfl
@[simp] theorem showTimestep_tx_out (s : State) (t : Nat) : (s.showTimestep t).tx_out = s.tx_out := rfl
@[simp] theorem showTimestep_event_no (s : State) (t : Nat) : (s.showTimestep t).event_no = s.event_no := rfl

@[simp] theorem assertPoint_cfg (s : State) (p : Point) : (s.assertPoint p).cfg = s.cfg := rfl
@[simp] theorem assertPoint_rx (s : State) (p : Point) : (s.assertPoint p).rx =
    { s.rx with row_drv := some p.row_pin, col_drv := some p.col_pin, scan_lit := true } := rfl
@[simp] theorem assertPoint_tx (s : State) (p : Point) : (s.assertPoint p).tx = s.tx := rfl
@[simp] theorem assertPoint_inputs (s : State) (p : Point) : (s.assertPoint p).inputs = s.inputs := rfl
@[simp] theorem assertPoint_tx_out (s : State) (p : Point) : (s.assertPoint p).tx_out = s.tx_out := rfl
@[simp] theorem assertPoint_event_no (s : State) (p : Point) : (s.assertPoint p).event_no = s.event_no := rfl

@[simp] theorem deassert_cfg (s : State) : (s.deassert).cfg = s.cfg := rfl
@[simp] theorem deassert_rx (s : State) : (s.deassert).rx =
    { s.rx with row_drv := none, col_drv := none, scan_lit := false, scan_i := s.rx.scan_i + 1 } := rfl
@[simp] theorem deassert_tx (s : State) : (s.deassert).tx = s.tx := rfl
@[simp] theorem deassert_inputs (s : State) : (s.deassert).inputs = s.inputs := rfl
@[simp] theorem deassert_tx_out (s : State) : (s.deassert).tx_out = s.tx_out := rfl
@[simp] theorem deassert_event_no (s : State) : (s.deassert).event_no = s.event_no := rfl

@[simp] theorem endPass_cfg (s : State) : (s.endPass).cfg = s.cfg := rfl
@[simp] theorem endPass_rx (s : State) : (s.endPass).rx =
    { s.rx with duty := (rampAfter s.cfg s.rx.duty s.rx.duty_dir).1, duty_dir := (rampAfter s.cfg s.rx.duty s.rx.duty_dir).2, scan_i := 0 } := rfl
@[simp] theorem endPass_tx (s : State) : (s.endPass).tx = s.tx := rfl
@[simp] theorem endPass_inputs (s : State) : (s.endPass).inputs = s.inputs := rfl
@[simp] theorem endPass_tx_out (s : State) : (s.endPass).tx_out = s.tx_out := rfl
@[simp] theorem endPass_event_no (s : State) : (s.endPass).event_no = s.event_no := rfl

@[simp] theorem countPwm_cfg (s : State) : (s.countPwm).cfg = s.cfg := rfl
@[simp] theorem countPwm_rx (s : State) : (s.countPwm).rx =
    { s.rx with pwm_cnt := (s.rx.pwm_cnt + 1) % s.cfg.PWM_PERIOD, blank := blankAfter ((s.rx.pwm_cnt + 1) % s.cfg.PWM_PERIOD) s.rx.duty s.rx.blank } := rfl
@[simp] theorem countPwm_tx (s : State) : (s.countPwm).tx = s.tx := rfl
@[simp] theorem countPwm_inputs (s : State) : (s.countPwm).inputs = s.inputs := rfl
@[simp] theorem countPwm_tx_out (s : State) : (s.countPwm).tx_out = s.tx_out := rfl
@[simp] theorem countPwm_event_no (s : State) : (s.countPwm).event_no = s.event_no := rfl

@[simp] theorem arm_cfg (s : State) (q : List (List Byte)) : (s.arm q).cfg = s.cfg := rfl
@[simp] theorem arm_rx (s : State) (q : List (List Byte)) : (s.arm q).rx = s.rx := rfl
@[simp] theorem arm_tx (s : State) (q : List (List Byte)) : (s.arm q).tx =
    { txq := q, txq_count := q.length, q_idx := 0, byte_offset := 0, tx_idle := false, sel_status := .ok } := rfl
@[simp] theorem arm_inputs (s : State) (q : List (List Byte)) : (s.arm q).inputs = s.inputs := rfl
@[simp] theorem arm_tx_out (s : State) (q : List (List Byte)) : (s.arm q).tx_out = s.tx_out := rfl
@[simp] theorem arm_event_no (s : State) (q : List (List Byte)) : (s.arm q).event_no = s.event_no := rfl

@[simp] theorem nextByte_cfg (s : State) : (s.nextByte).cfg = s.cfg := rfl
@[simp] theorem nextByte_rx (s : State) : (s.nextByte).rx = s.rx := rfl
@[simp] theorem nextByte_tx (s : State) : (s.nextByte).tx = { s.tx with byte_offset := s.tx.byte_offset + 1 } := rfl
@[simp] theorem nextByte_inputs (s : State) : (s.nextByte).inputs = s.inputs := rfl
@[simp] theorem nextByte_tx_out (s : State) : (s.nextByte).tx_out = s.tx_out := rfl
@[simp] theorem nextByte_event_no (s : State) : (s.nextByte).event_no = s.event_no := rfl

@[simp] theorem nextString_cfg (s : State) : (s.nextString).cfg = s.cfg := rfl
@[simp] theorem nextString_rx (s : State) : (s.nextString).rx = s.rx := rfl
@[simp] theorem nextString_tx (s : State) : (s.nextString).tx =
    if s.tx.q_idx + 1 = s.tx.txq_count then { s.tx with byte_offset := 0, q_idx := 0, tx_idle := true } else { s.tx with byte_offset := 0, q_idx := s.tx.q_idx + 1 } := rfl
@[simp] theorem nextString_inputs (s : State) : (s.nextString).inputs = s.inputs := rfl
@[simp] theorem nextString_tx_out (s : State) : (s.nextString).tx_out = s.tx_out := rfl
@[simp] theorem nextString_event_no (s : State) : (s.nextString).event_no = s.event_no := rfl

@[simp] theorem raise_cfg (s : State) (e : ErrorClass) : (s.raise e).cfg = s.cfg := by cases e <;> rfl
@[simp] theorem raise_inputs (s : State) (e : ErrorClass) : (s.raise e).inputs = s.inputs := by cases e <;> rfl
@[simp] theorem raise_tx_out (s : State) (e : ErrorClass) : (s.raise e).tx_out = s.tx_out := by cases e <;> rfl
@[simp] theorem raise_event_no (s : State) (e : ErrorClass) : (s.raise e).event_no = s.event_no := by cases e <;> rfl

@[simp] theorem raise_bufferOverflow_rx (s : State) :
    (s.raise .bufferOverflow).rx = { s.rx with ovf_cnt := satInc s.cfg.DIAG_MAX s.rx.ovf_cnt } := rfl
@[simp] theorem raise_bufferOverflow_tx (s : State) :
    (s.raise .bufferOverflow).tx = s.tx := rfl
@[simp] theorem raise_malformedFrame_rx (s : State) :
    (s.raise .malformedFrame).rx = { s.rx with mal_cnt := satInc s.cfg.DIAG_MAX s.rx.mal_cnt } := rfl
@[simp] theorem raise_malformedFrame_tx (s : State) :
    (s.raise .malformedFrame).tx = s.tx := rfl
@[simp] theorem raise_invalidPatternIndex_rx (s : State) :
    (s.raise .invalidPatternIndex).rx = s.rx := rfl
@[simp] theorem raise_invalidPatternIndex_tx (s : State) :
    (s.raise .invalidPatternIndex).tx = { s.tx with sel_status := .invalidPatternIndex } := rfl
@[simp] theorem raise_transmissionInProgress_rx (s : State) :
    (s.raise .transmissionInProgress).rx = s.rx := rfl
@[simp] theorem raise_transmissionInProgress_tx (s : State) :
    (s.raise .transmissionInProgress).tx = { s.tx with sel_status := .transmissionInProgress } := rfl

@[simp] theorem resetWith_cfg (c : Config) (inputs : List Ports) : (resetWith c inputs).cfg = c := rfl
@[simp] theorem resetWith_rx (c : Config) (inputs : List Ports) : (resetWith c inputs).rx = Receiver.reset c := rfl
@[simp] theorem resetWith_tx (c : Config) (inputs : List Ports) : (resetWith c inputs).tx = Sender.reset := rfl
@[simp] theorem resetWith_inputs (c : Config) (inputs : List Ports) : (resetWith c inputs).inputs = inputs := rfl

/-- Two states with equal parts are equal. -/
theorem ext_parts {s t : State} (hc : s.cfg = t.cfg) (hr : s.rx = t.rx) (hx : s.tx = t.tx) (hi : s.inputs = t.inputs)
    (ho : s.tx_out = t.tx_out) (he : s.event_no = t.event_no) : s = t := by
  cases s; cases t; simp_all

end State

end Sys2Proof.Machine
end

