-- ==== Sys2Proof/Laws/Exec.lean ====
section
/-! SUPPORT. Each meaning said once, so that later proofs cite these and unfold no meaning; and what no event writes. -/

namespace Sys2Proof.Machine

/-- Everything ONE can do under a well-formed configuration. -/
theorem execOne_eq {s : State} (h : s.cfg.wf = true) :
    execOne s =
      if inWindow s.cfg s.rx.row s.rx.col = true then
        if s.rx.ts < s.cfg.MAX_TIMESTEPS ∧ s.rx.pidx < s.cfg.CAP then
          .next (s.recordPoint (pinsAt s.cfg s.rx.row s.rx.col)).nextCol
        else .next (s.raise .bufferOverflow).nextCol
      else .next s.nextCol := by
  unfold execOne
  split
  · next hw => rw [windowPoint_of_inWindow h hw]
  · rfl

/-- Everything ONE can do when it answers a next state. -/
theorem execOne_cases {s t : State} (h : execOne s = .next t) :
    (inWindow s.cfg s.rx.row s.rx.col = true ∧ (s.rx.ts < s.cfg.MAX_TIMESTEPS ∧ s.rx.pidx < s.cfg.CAP) ∧
        ∃ p, windowPoint s.cfg s.rx.row s.rx.col = some p ∧ t = (s.recordPoint p).nextCol) ∨
      (inWindow s.cfg s.rx.row s.rx.col = true ∧ ¬(s.rx.ts < s.cfg.MAX_TIMESTEPS ∧ s.rx.pidx < s.cfg.CAP) ∧
        t = (s.raise .bufferOverflow).nextCol) ∨
      (inWindow s.cfg s.rx.row s.rx.col = false ∧ t = s.nextCol) := by
  unfold execOne at h
  split at h
  · next hw =>
    split at h
    · next hg =>
      split at h
      · next p hp => exact .inl ⟨hw, hg, p, hp, by cases h; rfl⟩
      · cases h
    · next hg => exact .inr (.inl ⟨hw, hg, by cases h; rfl⟩)
  · next hw => exact .inr (.inr ⟨by simpa using hw, by cases h; rfl⟩)

/-- Everything FRAMEEND can do. -/
theorem execFrameEnd_cases {s t : State} (h : execFrameEnd s = .next t) :
    (s.rx.frameEmpty = true ∧ s.rx.after_eot = true ∧ t = s.clearAfterEot) ∨
      (s.rx.frameEmpty = true ∧ s.rx.after_eot = false ∧ t = s.raise .malformedFrame) ∨
      (s.rx.frameEmpty = false ∧ s.rx.ts < s.cfg.MAX_TIMESTEPS ∧ t = s.storeCount.startFrame) ∨
      (s.rx.frameEmpty = false ∧ ¬s.rx.ts < s.cfg.MAX_TIMESTEPS ∧ t = (s.raise .bufferOverflow).startFrame) := by
  unfold execFrameEnd at h
  cases he : s.rx.frameEmpty <;> cases ha : s.rx.after_eot <;> by_cases ht : s.rx.ts < s.cfg.MAX_TIMESTEPS <;>
    simp_all

/-- FRAMEEND always completes. -/
theorem execFrameEnd_next (s : State) : ∃ t, execFrameEnd s = .next t := by
  unfold execFrameEnd
  split
  · split <;> exact ⟨_, rfl⟩
  · split <;> exact ⟨_, rfl⟩

/-- Everything EOT can do. -/
theorem execEot_eq (s : State) :
    execEot s = .next (if s.rx.frameEmpty = true then s.publish else (s.raise .malformedFrame).publish) := by
  unfold execEot
  split <;> rfl

/-- Everything ANIM_TICK can do. -/
theorem execAnimTick_eq (s : State) :
    execAnimTick s =
      .next (s.showTimestep
        (if s.rx.maxTimestep = 0 ∨ s.rx.current_timestep + 1 ≥ s.rx.maxTimestep then 0
         else s.rx.current_timestep + 1)) := by
  unfold execAnimTick
  by_cases h0 : s.rx.maxTimestep = 0
  · simp [h0]
  · by_cases h1 : s.rx.current_timestep + 1 ≥ s.rx.maxTimestep <;> simp [h0, h1]

/-- Everything SCAN_STEP can do when it answers a next state. -/
theorem execScanStep_cases {s t : State} (h : execScanStep s = .next t) :
    (s.rx.scan_lit = true ∧ t = s.deassert) ∨
      (s.rx.scan_lit = false ∧ s.rx.scan_i < s.rx.slotCount ∧
        ∃ p, s.rx.livePoint s.rx.current_timestep s.rx.scan_i = some p ∧ t = s.assertPoint p) ∨
      (s.rx.scan_lit = false ∧ s.rx.slotCount ≤ s.rx.scan_i ∧ t = s.endPass) := by
  unfold execScanStep at h
  split at h
  · next hl => exact .inl ⟨hl, by cases h; rfl⟩
  · next hl =>
    split at h
    · next hi =>
      split at h
      · next p hp => exact .inr (.inl ⟨by simpa using hl, hi, p, hp, by cases h; rfl⟩)
      · cases h
    · next hi => exact .inr (.inr ⟨by simpa using hl, by omega, by cases h; rfl⟩)

/-- Everything SELECT can do. -/
theorem execSelect_cases {s t : State} {i : Nat} (h : execSelect i s = .next t) :
    (s.cfg.NUM_PATTERNS ≤ i ∧ t = s.raise .invalidPatternIndex) ∨
      (∃ p, s.cfg.PATTERNS[i]? = some p ∧ s.tx.tx_idle = false ∧ t = s.raise .transmissionInProgress) ∨
      (∃ p, s.cfg.PATTERNS[i]? = some p ∧ s.tx.tx_idle = true ∧ t = s.arm (encodePattern s.cfg p)) := by
  unfold execSelect at h
  split at h
  · next hp => exact .inl ⟨List.getElem?_eq_none_iff.1 hp, by cases h; rfl⟩
  · next p hp =>
    split at h
    · next hi => exact .inr (.inr ⟨p, hp, hi, by cases h; rfl⟩)
    · next hi => exact .inr (.inl ⟨p, hp, by simpa using hi, by cases h; rfl⟩)

/-- SELECT always completes. -/
theorem execSelect_next (i : Nat) (s : State) : ∃ t, execSelect i s = .next t := by
  unfold execSelect
  split
  · exact ⟨_, rfl⟩
  · split <;> exact ⟨_, rfl⟩

/-- Everything TX_POLL can do when it answers a next state. -/
theorem execTxPoll_cases {s t : State} {ready : Bool} (h : execTxPoll ready s = .next t) :
    ((ready = false ∨ s.tx.tx_idle = true) ∧ t = s) ∨
      (ready = true ∧ s.tx.tx_idle = false ∧ ∃ str, s.tx.entry s.tx.q_idx = some str ∧
        ((s.tx.byte_offset = str.length ∧ t = s.nextString.emit 0x00#8) ∨
          ∃ b, s.tx.byte_offset ≠ str.length ∧ str[s.tx.byte_offset]? = some b ∧ t = s.nextByte.emit b)) := by
  unfold execTxPoll at h
  split at h
  · next hn =>
    refine .inl ⟨?_, by cases h; rfl⟩
    simpa using hn
  · next hn =>
    simp only [Bool.or_eq_true, Bool.not_eq_true', not_or, Bool.not_eq_false, Bool.not_eq_true] at hn
    refine .inr ⟨hn.1, hn.2, ?_⟩
    split at h
    · cases h
    · next str hs =>
      refine ⟨str, hs, ?_⟩
      split at h
      · next hl => exact .inl ⟨hl, by cases h; rfl⟩
      · next hl =>
        split at h
        · next b hb => exact .inr ⟨b, hl, hb, by cases h; rfl⟩
        · cases h

/-- Everything RX_BYTE can do: the action of the byte's class. -/
theorem execRxByte_eq (b : Byte) (s : State) : execRxByte b s = exec (decodeByte s.cfg b) s := by
  unfold execRxByte decodeByte
  cases classify s.cfg b <;> rfl

/-- An event that acts as a byte class does exactly that class's action (R160). -/
theorem exec_of_byteClass {i : Instr} {s : State} {k : ByteClass} (h : byteClass s.cfg i = some k) :
    exec i s =
      match k with
      | .one => execOne s
      | .zero => execZero s
      | .rowEnd => execRowEnd s
      | .frameEnd => execFrameEnd s
      | .eot => execEot s
      | .ignore => .next s := by
  cases i
  case rxByte b =>
    have hk : classify s.cfg b = k := by simpa [byteClass] using h
    simp only [exec, execRxByte, hk]
    cases k <;> rfl
  all_goals
    simp only [byteClass, Option.some.injEq, reduceCtorEq] at h
    try (subst h; rfl)

/-- `frame_empty` (R28) as the two registers it reads. -/
theorem frameEmpty_iff {r : Receiver} : r.frameEmpty = true ↔ r.row = 0 ∧ r.col = 0 := by
  simp [Receiver.frameEmpty]

/-- The window predicate of the statements is the one the meanings test (R68). -/
theorem cellInWindow_iff {c : Config} {row col : Nat} : CellInWindow c row col ↔ inWindow c row col = true := by
  rw [inWindow_iff]; rfl

/-- No event writes the parameters, the samples still to come or the event counter. -/
theorem exec_environment {i : Instr} {s t : State} (h : exec i s = .next t) :
    t.cfg = s.cfg ∧ t.inputs = s.inputs ∧ t.event_no = s.event_no := by
  have byteCase : ∀ j : Instr, (agentOf j = .dec ∧ ∀ b, j ≠ .rxByte b) → exec j s = .next t →
      t.cfg = s.cfg ∧ t.inputs = s.inputs ∧ t.event_no = s.event_no := by
    intro j hj hx
    cases j <;> simp only [agentOf, reduceCtorEq, false_and] at hj
    case one => obtain ⟨-, -, p, -, rfl⟩ | ⟨-, -, rfl⟩ | ⟨-, rfl⟩ := execOne_cases hx <;> simp
    case zero => cases hx; simp
    case rowEnd => cases hx; simp
    case frameEnd =>
      obtain ⟨-, -, rfl⟩ | ⟨-, -, rfl⟩ | ⟨-, -, rfl⟩ | ⟨-, -, rfl⟩ := execFrameEnd_cases hx <;> simp
    case eot =>
      simp only [exec, execEot_eq, Host.Outcome.next.injEq] at hx
      subst hx
      split <;> simp
    case ignore => cases hx; simp
    case rxByte b => exact absurd rfl (hj.2 b)
  cases i
  case rxByte b =>
    refine byteCase (decodeByte s.cfg b) ?_ (by rw [← execRxByte_eq]; exact h)
    unfold decodeByte
    cases classify s.cfg b <;> simp [agentOf]
  case reset target => cases target <;> cases h <;> simp
  case animTick =>
    simp only [exec, execAnimTick_eq, Host.Outcome.next.injEq] at h
    subst h; simp
  case pwmTick => cases h; simp
  case scanStep =>
    obtain ⟨-, rfl⟩ | ⟨-, -, p, -, rfl⟩ | ⟨-, -, rfl⟩ := execScanStep_cases h <;> simp
  case select i =>
    obtain ⟨-, rfl⟩ | ⟨p, -, -, rfl⟩ | ⟨p, -, -, rfl⟩ := execSelect_cases h <;> simp
  case txPoll ready =>
    obtain ⟨-, rfl⟩ | ⟨-, -, str, -, ⟨-, rfl⟩ | ⟨b, -, -, rfl⟩⟩ := execTxPoll_cases h <;> simp
  all_goals exact byteCase _ (by simp [agentOf]) h

end Sys2Proof.Machine
end

