-- ==== Sys2Proof/Laws/Geometry.lean ====
section
/-! SUPPORT. The cursor's walk over the window (R71's argument), and the length of a frame's string (R45). -/

namespace Sys2Proof.Machine

/-- Moving right never lowers the count of window cells passed. -/
theorem cellsBefore_le_nextCol {c : Config} {row col : Nat} : cellsBefore c row col ≤ cellsBefore c row (col+1) := by
  unfold cellsBefore; split <;> [omega; split <;> omega]

/-- Moving right over a window cell raises the count by one. -/
theorem cellsBefore_nextCol {c : Config} {row col : Nat} (h : inWindow c row col = true) :
    cellsBefore c row (col+1) = cellsBefore c row col + 1 := by
  rw [inWindow_iff] at h
  unfold cellsBefore
  rw [if_neg (by omega), if_pos (by omega), if_neg (by omega), if_pos (by omega)]
  omega

/-- Starting the next row never lowers the count of window cells passed. -/
theorem cellsBefore_le_nextRow {c : Config} {row col : Nat} : cellsBefore c row col ≤ cellsBefore c (row+1) 0 := by
  unfold cellsBefore
  by_cases h1 : row < c.ROW_OFFSET
  · simp [h1]
  · rw [if_neg h1, if_neg (show ¬ row + 1 < c.ROW_OFFSET by omega)]
    by_cases h2 : row < c.ROW_OFFSET + c.ROW_SPAN
    · rw [if_pos h2]
      have e : (row - c.ROW_OFFSET + 1) * c.COL_SPAN = (row - c.ROW_OFFSET) * c.COL_SPAN + c.COL_SPAN := by ring
      by_cases h3 : row + 1 < c.ROW_OFFSET + c.ROW_SPAN
      · rw [if_pos h3]
        have : row + 1 - c.ROW_OFFSET = row - c.ROW_OFFSET + 1 := by omega
        rw [this, e]; omega
      · rw [if_neg h3]
        have : c.ROW_SPAN = row - c.ROW_OFFSET + 1 := by omega
        rw [this, e]; omega
    · rw [if_neg h2, if_neg (by omega)]

/-- Never more cells than the window has (R71). -/
theorem cellsBefore_le_window {c : Config} {row col : Nat} : cellsBefore c row col ≤ c.ROW_SPAN * c.COL_SPAN := by
  unfold cellsBefore
  split
  · omega
  · split
    · have : (row - c.ROW_OFFSET + 1) * c.COL_SPAN ≤ c.ROW_SPAN * c.COL_SPAN := Nat.mul_le_mul_right _ (by omega)
      have e : (row - c.ROW_OFFSET + 1) * c.COL_SPAN = (row - c.ROW_OFFSET) * c.COL_SPAN + c.COL_SPAN := by ring
      omega
    · omega

/-- The length of the string of a well-shaped frame (R45, R124). -/
theorem frameStr_length {c : Config} : ∀ (f :
    Frame), (∀ row ∈ f, row.length = c.COLS) → f ≠ [] → (frameStr c f).length = f.length * c.COLS + f.length - 1
  | [], _, h => absurd rfl h
  | [row], h, _ => by simp [frameStr, rowStr, h]
  | row :: next :: rest, h, _ => by
    have ih := frameStr_length (c := c) (next :: rest) (fun r hr => h r (List.mem_cons_of_mem _ hr)) (by simp)
    have h0 := h row (by simp)
    simp only [frameStr, List.length_append, List.length_cons, ih, rowStr, List.length_map, h0]
    simp only [List.length_cons] at *
    rw [show (rest.length + 1 + 1) * c.COLS = (rest.length+1) * c.COLS + c.COLS from by ring]
    omega

end Sys2Proof.Machine
end

