-- ==== Sys2Proof/Laws/Memory.lean ====
section
/-! SUPPORT. The laws of the frame buffer: a read after a write, what a write leaves alone, and that every write keeps the
canonical form. -/

namespace Sys2Proof.Machine

namespace Cells

variable {κ α : Type} [DecidableEq κ]

@[simp] theorem lookup_nil (a : κ) : lookup ([] : List (κ × α)) a = none := rfl

theorem lookup_insert (lt : κ → κ → Bool) (m : List (κ × α)) (a b : κ) (x : α) :
    lookup (insert lt m a x) b = if b = a then some x else lookup m b := by
  induction m with
  | nil => rfl
  | cons e m ih =>
    obtain ⟨k, v⟩ := e
    by_cases hak : a = k
    · subst hak
      by_cases hb : b = a <;> simp [insert, lookup, hb]
    · cases hlt : lt a k
      · by_cases hbk : b = k
        · subst hbk
          simp [insert, lookup, hak, hlt, Ne.symm hak]
        · simp [insert, lookup, hak, hlt, hbk, ih]
      · by_cases hb : b = a <;> simp [insert, lookup, hak, hlt, hb]

theorem lookup_erase (m : List (κ × α)) (a b : κ) :
    lookup (erase m a) b = if b = a then none else lookup m b := by
  induction m with
  | nil => simp [erase]
  | cons e m ih =>
    obtain ⟨k, v⟩ := e
    by_cases hak : a = k
    · subst hak
      simp only [erase, if_true, ih, lookup]
      split <;> rfl
    · by_cases hbk : b = k
      · subst hbk
        simp [erase, lookup, hak, Ne.symm hak]
      · simp [erase, lookup, hak, hbk, ih]

theorem all_insert (lt : κ → κ → Bool) (q : κ × α → Bool) (m : List (κ × α)) (a : κ) (x : α)
    (hm : m.all q = true) (hx : q (a, x) = true) : (insert lt m a x).all q = true := by
  induction m with
  | nil => simp [insert, hx]
  | cons e m ih =>
    obtain ⟨k, v⟩ := e
    simp only [List.all_cons, Bool.and_eq_true] at hm
    by_cases hak : a = k
    · subst hak
      simp [insert, hx, hm.2]
    · cases hlt : lt a k <;> simp [insert, hak, hlt, hx, hm.1, hm.2, ih hm.2]

theorem all_erase (q : κ × α → Bool) (m : List (κ × α)) (a : κ) (hm : m.all q = true) :
    (erase m a).all q = true := by
  induction m with
  | nil => rfl
  | cons e m ih =>
    obtain ⟨k, v⟩ := e
    simp only [List.all_cons, Bool.and_eq_true] at hm
    by_cases hak : a = k
    · subst hak
      simpa [erase] using ih hm.2
    · simp only [erase, hak, if_false, List.all_cons, hm.1, ih hm.2, Bool.and_self]

theorem rising_insert (lt : κ → κ → Bool) (htrans : ∀ a b c, lt a b = true → lt b c = true → lt a c = true)
    (htotal : ∀ a b, a ≠ b → lt a b = false → lt b a = true) (m : List (κ × α)) (a : κ) (x : α)
    (hm : rising lt m = true) : rising lt (insert lt m a x) = true := by
  induction m with
  | nil => rfl
  | cons e m ih =>
    obtain ⟨k, v⟩ := e
    simp only [rising, Bool.and_eq_true] at hm
    by_cases hak : a = k
    · simp [insert, hak, rising, hm.1, hm.2]
    · cases hlt : lt a k
      · simp only [insert, hak, hlt, rising, if_false, Bool.false_eq_true, Bool.and_eq_true]
        exact ⟨all_insert lt _ m a x hm.1 (htotal a k hak hlt), ih hm.2⟩
      · simp only [insert, hak, hlt, rising, if_false, if_true, Bool.and_eq_true, List.all_cons]
        refine ⟨⟨trivial, ?_⟩, hm.1, hm.2⟩
        rw [List.all_eq_true] at hm ⊢
        exact fun e he => htrans _ _ _ hlt (hm.1 e he)

theorem rising_erase (lt : κ → κ → Bool) (m : List (κ × α)) (a : κ) (hm : rising lt m = true) :
    rising lt (erase m a) = true := by
  induction m with
  | nil => rfl
  | cons e m ih =>
    obtain ⟨k, v⟩ := e
    simp only [rising, Bool.and_eq_true] at hm
    by_cases hak : a = k
    · subst hak
      simpa [erase] using ih hm.2
    · simp only [erase, hak, if_false, rising, Bool.and_eq_true]
      exact ⟨all_erase _ m a hm.1, ih hm.2⟩

end Cells

theorem CountAddr.lt_trans (a b c : CountAddr) (h : a.lt b = true) (h' : b.lt c = true) : a.lt c = true := by
  cases a with | mk ab at' => cases b with | mk bb bt => cases c with | mk cb ct =>
  simp only [CountAddr.lt, decide_eq_true_eq] at *
  cases ab <;> cases bb <;> cases cb <;> simp_all <;> omega

theorem CountAddr.lt_total (a b : CountAddr) (hne : a ≠ b) (h : a.lt b = false) : b.lt a = true := by
  cases a with | mk ab at' => cases b with | mk bb bt =>
  simp only [CountAddr.lt, decide_eq_true_eq, decide_eq_false_iff_not, ne_eq, CountAddr.mk.injEq] at *
  cases ab <;> cases bb <;> simp_all <;> omega

theorem PointAddr.lt_trans (a b c : PointAddr) (h : a.lt b = true) (h' : b.lt c = true) : a.lt c = true := by
  cases a with | mk ab at' ai => cases b with | mk bb bt bi => cases c with | mk cb ct ci =>
  simp only [PointAddr.lt, decide_eq_true_eq] at *
  cases ab <;> cases bb <;> cases cb <;> simp_all <;> omega

theorem PointAddr.lt_total (a b : PointAddr) (hne : a ≠ b) (h : a.lt b = false) : b.lt a = true := by
  cases a with | mk ab at' ai => cases b with | mk bb bt bi =>
  simp only [PointAddr.lt, decide_eq_true_eq, decide_eq_false_iff_not, ne_eq, PointAddr.mk.injEq] at *
  cases ab <;> cases bb <;> simp_all <;> omega

namespace Memory

/-- A count read after a count is written: the new value there, the old value everywhere else. -/
theorem readCount_writeCount (m : Memory) (b b' : Bool) (t t' n : Nat) :
    (m.writeCount b t n).readCount b' t' = if b' = b ∧ t' = t then n else m.readCount b' t' := by
  simp only [readCount, writeCount]
  split
  · next hn =>
    rw [Cells.lookup_erase]
    simp only [CountAddr.mk.injEq]
    split <;> simp_all
  · rw [Cells.lookup_insert]
    simp only [CountAddr.mk.injEq]
    split <;> simp_all

/-- A point read after a point is written. -/
theorem readPoint_writePoint (m : Memory) (b b' : Bool) (t t' i i' : Nat) (p : Point) :
    (m.writePoint b t i p).readPoint b' t' i' =
      if b' = b ∧ t' = t ∧ i' = i then some p else m.readPoint b' t' i' := by
  simp only [readPoint, writePoint, Cells.lookup_insert, PointAddr.mk.injEq]

@[simp] theorem readPoint_writeCount (m : Memory) (b b' : Bool) (t t' i n : Nat) :
    (m.writeCount b t n).readPoint b' t' i = m.readPoint b' t' i := rfl

@[simp] theorem readCount_writePoint (m : Memory) (b b' : Bool) (t t' i : Nat) (p : Point) :
    (m.writePoint b t i p).readCount b' t' = m.readCount b' t' := rfl

@[simp] theorem readCount_empty (b : Bool) (t : Nat) : readCount ⟨[], []⟩ b t = 0 := rfl

@[simp] theorem readPoint_empty (b : Bool) (t i : Nat) : readPoint ⟨[], []⟩ b t i = none := rfl

theorem wf_writeCount (m : Memory) (b : Bool) (t n : Nat) (h : m.wf = true) : (m.writeCount b t n).wf = true := by
  simp only [wf, Bool.and_eq_true] at h
  obtain ⟨⟨hr, hz⟩, hp⟩ := h
  simp only [wf, writeCount, Bool.and_eq_true]
  split
  · exact ⟨⟨Cells.rising_erase _ _ _ hr, Cells.all_erase _ _ _ hz⟩, hp⟩
  · next hn =>
    exact ⟨⟨Cells.rising_insert _ CountAddr.lt_trans CountAddr.lt_total _ _ _ hr,
      Cells.all_insert _ _ _ _ _ hz (by simpa using hn)⟩, hp⟩

theorem wf_writePoint (m : Memory) (b : Bool) (t i : Nat) (p : Point) (h : m.wf = true) :
    (m.writePoint b t i p).wf = true := by
  simp only [wf, Bool.and_eq_true] at h
  simp only [wf, writePoint, Bool.and_eq_true]
  exact ⟨h.1, Cells.rising_insert _ PointAddr.lt_trans PointAddr.lt_total _ _ _ h.2⟩

/-- Reset memory is canonical. -/
theorem wf_reset (c : Config) : (Receiver.reset c).fb.wf = true := rfl

end Memory

end Sys2Proof.Machine
end

