-- ==== Sys2Proof/Laws/PerInstr.lean ====
section
/-! SUPPORT. Statements made per instruction, one lemma for each constructor. -/

namespace Sys2Proof.Laws.SelfDescribing

/-- The word of a well-formed instruction stands for that instruction, in its own format. -/
def Statement (i : Instr) : Prop :=
  ∀ c : Config, i.wf c = true → c.wf = true →
    (match encode c i with
      | .byte b => decodeByte c b = i
      | .sample p => p.events c = [i])

theorem distinct {c : Config} (h : c.wf = true) :
    [c.BYTE_ONE, c.BYTE_ZERO, c.BYTE_SEP, Config.BYTE_FRAME_END, Config.BYTE_EOT].Nodup := by
  simp only [Config.wf, Config.wfBytes, Bool.and_eq_true, decide_eq_true_eq] at h
  exact h.2

theorem one : Statement .one := by
  intro c _ h
  simp [encode, decodeByte, classify]

theorem zero : Statement .zero := by
  intro c _ h
  have hb := distinct h
  simp only [List.nodup_cons, List.mem_cons, List.not_mem_nil, or_false, not_or] at hb
  simp [encode, decodeByte, classify, Ne.symm hb.1.1]

theorem rowEnd : Statement .rowEnd := by
  intro c _ h
  have hb := distinct h
  simp only [List.nodup_cons, List.mem_cons, List.not_mem_nil, or_false, not_or] at hb
  simp [encode, decodeByte, classify, Ne.symm hb.1.2.1, Ne.symm hb.2.1.1]

theorem frameEnd : Statement .frameEnd := by
  intro c _ h
  have hb := distinct h
  simp only [List.nodup_cons, List.mem_cons, List.not_mem_nil, or_false, not_or] at hb
  simp [encode, decodeByte, classify, Ne.symm hb.1.2.2.1, Ne.symm hb.2.1.2.1, Ne.symm hb.2.2.1.1]

theorem eot : Statement .eot := by
  intro c _ h
  have hb := distinct h
  simp only [List.nodup_cons, List.mem_cons, List.not_mem_nil, or_false, not_or] at hb
  simp [encode, decodeByte, classify, Ne.symm hb.1.2.2.2, Ne.symm hb.2.1.2.2, Ne.symm hb.2.2.1.2,
    show ¬Config.BYTE_EOT = Config.BYTE_FRAME_END by decide]

theorem ignore (b : Byte) : Statement (.ignore b) := by
  intro c hi _
  simp only [Instr.wf, decide_eq_true_eq, List.mem_cons, List.not_mem_nil, or_false, not_or] at hi
  simp [encode, decodeByte, classify, hi]

theorem rxByte (b : Byte) : Statement (.rxByte b) := fun _ _ _ => rfl

theorem reset (target : SubBlock) : Statement (.reset target) := by
  intro c _ _
  cases target <;> rfl

theorem animTick : Statement .animTick := fun _ _ _ => rfl

theorem pwmTick : Statement .pwmTick := fun _ _ _ => rfl

theorem scanStep : Statement .scanStep := fun _ _ _ => rfl

theorem select (i : Nat) : Statement (.select i) := by
  intro c hi _
  simp only [Instr.wf, decide_eq_true_eq] at hi
  show [Instr.select (i % 2 ^ c.SEL_W)] = [Instr.select i]
  rw [Nat.mod_eq_of_lt hi]

theorem txPoll (ready : Bool) : Statement (.txPoll ready) := fun _ _ _ => rfl

end Sys2Proof.Laws.SelfDescribing
end

