-- ==== Sys2Proof/Laws/Step.lean ====
section
/-! SUPPORT. What one step can do, and what the runs of Safety.lean unfold to. -/

namespace Sys2Proof.Machine

@[simp] theorem fetch_nil (c : Config) : fetch c [] = (none, []) := rfl

theorem fetch_quiet (c : Config) {p : Ports} (h : p.first = none) (rest : List Ports) :
    fetch c (p :: rest) = (none, rest) := by
  simp only [fetch, h]

theorem fetch_strobe (c : Config) {p : Ports} {st : Strobe} (h : p.first = some st) (rest : List Ports) :
    fetch c (p :: rest) = (some (p.event c st), afterServing (serve p st) rest) := by
  simp only [fetch, h]

/-- A step is an event or a cycle without one, in a state with a well-formed configuration. -/
theorem step_cases {s t : State} (h : step s = .next t) :
    s.cfg.wf = true ∧
      ((∃ rest, fetch s.cfg s.inputs = (none, rest) ∧ t = s.beginEvent rest) ∨
        ∃ i rest, fetch s.cfg s.inputs = (some i, rest) ∧ exec i (s.beginEvent rest) = .next t) := by
  unfold step at h
  split at h
  · next hw =>
    refine ⟨hw, ?_⟩
    split at h
    · next rest hf => exact .inl ⟨rest, hf, by cases h; rfl⟩
    · next i rest hf => exact .inr ⟨i, rest, hf, h⟩
  · cases h

theorem step_event {s : State} (hw : s.cfg.wf = true) {i : Instr} {rest : List Ports}
    (hf : fetch s.cfg s.inputs = (some i, rest)) : step s = exec i (s.beginEvent rest) := by
  simp only [step, hw, if_true, hf]

theorem step_idle {s : State} (hw : s.cfg.wf = true) {rest : List Ports}
    (hf : fetch s.cfg s.inputs = (none, rest)) : step s = .next (s.beginEvent rest) := by
  simp only [step, hw, if_true, hf]

theorem step_refuses {s : State} (hw : s.cfg.wf = false) : step s = .refused .illFormedConfig := by
  simp [step, hw]

/-- No step writes the parameters of the run (R10, R21). -/
theorem step_cfg {s t : State} (h : step s = .next t) : t.cfg = s.cfg := by
  obtain ⟨-, ⟨rest, -, rfl⟩ | ⟨i, rest, -, he⟩⟩ := step_cases h
  · rfl
  · exact (exec_environment he).1

@[simp] theorem runEvents_nil (s : State) : runEvents [] s = .next s := rfl

theorem runEvents_cons {i : Instr} {s t : State} (h : exec i s = .next t) (is : List Instr) :
    runEvents (i :: is) s = runEvents is t := by
  simp only [runEvents, h]

theorem runEvents_cons_next {i : Instr} {is : List Instr} {s u : State} (h : runEvents (i :: is) s = .next u) :
    ∃ t, exec i s = .next t ∧ runEvents is t = .next u := by
  simp only [runEvents] at h
  split at h
  · next t ht => exact ⟨t, ht, h⟩
  · cases h
  · cases h

theorem runEvents_append {is js : List Instr} {s t : State} (h : runEvents is s = .next t) :
    runEvents (is ++ js) s = runEvents js t := by
  induction is generalizing s with
  | nil => cases h; rfl
  | cons i is ih =>
    obtain ⟨u, hu, hrest⟩ := runEvents_cons_next h
    rw [List.cons_append, runEvents_cons hu, ih hrest]

theorem runEvents_append_next {is js : List Instr} {s u : State} (h : runEvents (is ++ js) s = .next u) :
    ∃ t, runEvents is s = .next t ∧ runEvents js t = .next u := by
  induction is generalizing s with
  | nil => exact ⟨s, rfl, h⟩
  | cons i is ih =>
    obtain ⟨t, ht, hrest⟩ := runEvents_cons_next h
    obtain ⟨v, hv, hjs⟩ := ih hrest
    exact ⟨v, by rw [runEvents_cons ht, hv], hjs⟩

end Sys2Proof.Machine
end

