-- ==== Sys2Proof/Tests/Slice0.lean ====
section
/-! SUPPORT. The model's own tests: ill-formed terms that the checks refuse, words written out from the spec's encodings,
one step of each instruction with the result spec/95_test_vectors.md gives, and for every statement that has hypotheses a
concrete state that meets them. -/

namespace Sys2Proof.Tests

open Sys2Proof.Machine

/-! ### Small states -/

/-- Reset under a configuration, with the Parse Cursor `(row, col, pidx, ts)` of 95_test_vectors.md section 0. -/
def cursorAt (c : Config) (row col pidx ts : Nat) : State :=
  (State.resetWith c []).setRx { Receiver.reset c with row := row, col := col, pidx := pidx, ts := ts }

/-- Reset under CFG_REF with some receiver fields changed. -/
def withRx (f : Receiver → Receiver) : State := State.reset.setRx (f State.reset.rx)

/-- Reset under CFG_REF with some sender fields changed. -/
def withTx (f : Sender → Sender) : State := State.reset.setTx (f State.reset.tx)

/-- A live bank with two timesteps, of the points (2,5) (2,10) and (3,6); timestep 0 is shown. -/
def showing : State :=
  withRx fun r =>
    { r with
      fb := ⟨[(⟨false, 0⟩, 2), (⟨false, 1⟩, 1)], [(⟨false, 0, 0⟩, ⟨2, 5⟩), (⟨false, 0, 1⟩, ⟨2, 10⟩), (⟨false, 1, 0⟩, ⟨3, 6⟩)]⟩
      maxTimestep := 2 }

/-- A live count of 1 with no point written: no run reaches it. -/
def unwritten : State := withRx fun r => { r with fb := ⟨[(⟨false, 0⟩, 1)], []⟩, maxTimestep := 1 }

/-- A transmission of the strings "1" and EOT, armed. -/
def sending (q_idx byte_offset : Nat) : State :=
  withTx fun x =>
    { x with txq := [[0x31#8], [0x04#8]], txq_count := 2, q_idx := q_idx, byte_offset := byte_offset, tx_idle := false }

/-- The Parse Cursor after an event. -/
def cur (r : Result) : Option (Nat × Nat × Nat × Nat) :=
  (nextState? r).map fun s => (s.rx.row, s.rx.col, s.rx.pidx, s.rx.ts)

/-- `(after_eot, ovf_cnt, mal_cnt, live_sel, maxTimestep, current_timestep)` after an event. -/
def regs (r : Result) : Option (Bool × Nat × Nat × Bool × Nat × Nat) :=
  (nextState? r).map fun s =>
    (s.rx.after_eot, s.rx.ovf_cnt, s.rx.mal_cnt, s.rx.live_sel, s.rx.maxTimestep, s.rx.current_timestep)

/-- `(scan_i, scan_lit, row_drv, col_drv, duty, duty_dir)` after an event. -/
def scan (r : Result) : Option (Nat × Bool × Option Nat × Option Nat × Nat × DutyDir) :=
  (nextState? r).map fun s =>
    (s.rx.scan_i, s.rx.scan_lit, s.rx.row_drv, s.rx.col_drv, s.rx.duty, s.rx.duty_dir)

/-- The pump's registers and the output port. -/
structure PumpView where
  txq_count : Nat
  q_idx : Nat
  byte_offset : Nat
  tx_idle : Bool
  sel_status : SelStatus
  tx_out : Option Byte
  deriving DecidableEq, Repr

/-- The pump's registers and the output port after an event. -/
def pump (r : Result) : Option PumpView :=
  (nextState? r).map fun s =>
    ⟨s.tx.txq_count, s.tx.q_idx, s.tx.byte_offset, s.tx.tx_idle, s.tx.sel_status, s.tx_out⟩

/-! ### The checks refuse ill-formed terms (R10, R12) -/

theorem test_ref_wf : Config.ref.wf = true := by decide
theorem test_win_wf : Config.win.wf = true := by decide
theorem test_wf_cur_w : Config.wfGeometry { Config.ref with CUR_W := 0 } = false := by decide
theorem test_wf_rows_zero : Config.wfGeometry { Config.ref with ROWS := 0 } = false := by decide
theorem test_wf_rows_max : Config.wfGeometry { Config.ref with ROWS := 256 } = false := by decide
theorem test_wf_cols_zero : Config.wfGeometry { Config.ref with COLS := 0 } = false := by decide
theorem test_wf_cols_max : Config.wfGeometry { Config.ref with COLS := 256 } = false := by decide
theorem test_wf_timesteps : Config.wfCapacity { Config.ref with MAX_TIMESTEPS := 0 } = false := by decide
theorem test_wf_diag_w : Config.wfCapacity { Config.ref with DIAG_W := 0 } = false := by decide
theorem test_wf_window_rows : Config.wfWindow { Config.ref with ROW_OFFSET := 1 } = false := by decide
theorem test_wf_window_cols : Config.wfWindow { Config.ref with COL_SPAN := 7 } = false := by decide
theorem test_wf_pin_w : Config.wfPins { Config.ref with PIN_W := 0 } = false := by decide
theorem test_wf_pins_short : Config.wfPins { Config.ref with ROW_PIN := [2, 3] } = false := by decide
theorem test_wf_pins_cols_short : Config.wfPins { Config.ref with COL_PIN := [5, 6] } = false := by decide
theorem test_wf_pins_wide : Config.wfPins { Config.ref with ROW_PIN := [2, 3, 256] } = false := by decide
theorem test_wf_pins_twice : Config.wfPins { Config.ref with ROW_PIN := [2, 3, 3] } = false := by decide
theorem test_wf_pins_shared : Config.wfPins { Config.ref with ROW_PIN := [2, 3, 5] } = false := by decide
theorem test_wf_pwm_w : Config.wfDuty { Config.ref with PWM_W := 0 } = false := by decide
theorem test_wf_duty_order : Config.wfDuty { Config.ref with DUTY_MIN := 101 } = false := by decide
theorem test_wf_duty_max : Config.wfDuty { Config.ref with DUTY_MAX := 256 } = false := by decide
theorem test_wf_duty_step : Config.wfDuty { Config.ref with DUTY_STEP := 0 } = false := by decide
theorem test_wf_sel_w : Config.wfLibrary { Config.ref with SEL_W := 0 } = false := by decide
theorem test_wf_library_size : Config.wfLibrary { Config.ref with SEL_W := 1 } = false := by decide
theorem test_wf_frames : Config.wfLibrary { Config.ref with MAX_FRAMES := 3 } = false := by decide
theorem test_wf_frame_rows : Config.wfFrame Config.ref [] = false := by decide
theorem test_wf_frame_cols : Config.wfFrame Config.ref [[true], [true], [true]] = false := by decide
theorem test_wf_bytes_same : Config.wfBytes { Config.ref with BYTE_ONE := 0x30#8 } = false := by decide
theorem test_wf_bytes_nul : Config.wfBytes { Config.ref with BYTE_ZERO := 0x00#8 } = false := by decide
theorem test_wf_bytes_eot : Config.wfBytes { Config.ref with BYTE_SEP := 0x04#8 } = false := by decide
theorem test_wf_ignore : (Instr.ignore 0x31#8).wf Config.ref = false := by decide
theorem test_wf_select : (Instr.select 256).wf Config.ref = false := by decide
theorem test_wf_select_max : (Instr.select 255).wf Config.ref = true := by decide

/-- R12: a model must refuse an ill-formed configuration. -/
theorem test_step_refuses_ill_formed :
    step (State.resetWith { Config.ref with ROW_OFFSET := 1 } []) = .refused .illFormedConfig :=
  step_refuses (by decide)

/-! ### Decoding: words written out from R95 and R101 -/

theorem test_decode_one : decodeTableWord 8 0b00110001 = some .one := by decide
theorem test_decode_zero : decodeTableWord 8 0b00110000 = some .zero := by decide
theorem test_decode_rowEnd : decodeTableWord 8 0b00101100 = some .rowEnd := by decide
theorem test_decode_frameEnd : decodeTableWord 8 0b00000000 = some .frameEnd := by decide
theorem test_decode_eot : decodeTableWord 8 0b00000100 = some .eot := by decide
theorem test_decode_ignore : decodeTableWord 8 0b00001010 = some (.ignore 0x0A#8) := by decide
theorem test_decode_rx_byte :
    decode Config.ref (.sample { Ports.quiet with rx_valid := true, rx_data := 0b00101100 }) = .ok (.rxByte 0x2C#8) := by
  decide
theorem test_decode_reset : decodeTableWord 5 0b10000 = some (.reset .receiver) := by decide
theorem test_decode_reset_sender : decodeTableWord 3 0b100 = some (.reset .sender) := by decide
theorem test_decode_anim_tick : decodeTableWord 5 0b00100 = some .animTick := by decide
theorem test_decode_pwm_tick : decodeTableWord 5 0b00010 = some .pwmTick := by decide
theorem test_decode_scan_step : decodeTableWord 5 0b00001 = some .scanStep := by decide
theorem test_decode_select :
    decode Config.ref (.sample { Ports.quiet with sel_valid := true, sel_index := 0b00000010 }) = .ok (.select 2) := by
  decide
theorem test_decode_tx_poll :
    decode Config.ref (.sample { Ports.quiet with tx_poll := true, tx_ready := true }) = .ok (.txPoll true) := by decide

/-- R101: the index port has SEL_W bits. -/
theorem test_decode_select_width :
    decode Config.ref (.sample { Ports.quiet with sel_valid := true, sel_index := 0b100000001 }) = .ok (.select 1) := by
  decide

/-- R238: of several strobes, RESET comes first. -/
theorem test_decode_priority : decodeTableWord 5 0b11111 = some (.reset .receiver) := by decide

/-- R236: a strobe that is 0 causes nothing. -/
theorem test_decode_no_strobe : decodeTableWord 5 0b00000 = none := by decide

/-! ### One step of each instruction (results from 95_test_vectors.md) -/

/-- V-DEC-2, byte 1. -/
theorem test_one_records :
    cur (exec .one State.reset) = some (0, 1, 1, 0) ∧
      (nextState? (exec .one State.reset)).map (fun s => s.rx.fb.readPoint true 0 0) = some (some ⟨2, 5⟩) :=
  ⟨by decide, by decide⟩

/-- V-DEC-7, last row: column COL_OFFSET + COL_SPAN is outside the window. -/
theorem test_one_half_open :
    cur (exec .one (cursorAt Config.win 1 5 0 0)) = some (1, 6, 0, 0) ∧
      cur (exec .one (cursorAt Config.win 1 4 0 0)) = some (1, 5, 1, 0) :=
  ⟨by decide, by decide⟩

/-- V-DEC-14 (a): saturation. -/
theorem test_zero_saturates : cur (exec .zero (cursorAt Config.ref 0 255 0 0)) = some (0, 255, 0, 0) := by decide

/-- V-DEC-12: the trailing separator. -/
theorem test_rowEnd : cur (exec .rowEnd (cursorAt Config.ref 2 6 6 0)) = some (3, 0, 6, 0) := by decide

/-- V-DEC-1, the last byte. -/
theorem test_frameEnd_stores :
    cur (exec .frameEnd (cursorAt Config.ref 2 6 6 0)) = some (0, 0, 0, 1) ∧
      (nextState? (exec .frameEnd (cursorAt Config.ref 2 6 6 0))).map (fun s => s.rx.fb.readCount true 0) = some 6 :=
  ⟨by decide, by decide⟩

/-- V-DEC-4, the second NUL; V-DEC-13, the fifth. -/
theorem test_frameEnd_malformed_and_overflow :
    regs (exec .frameEnd (cursorAt Config.ref 0 0 0 1)) = some (false, 0, 1, false, 0, 0) ∧
      regs (exec .frameEnd (cursorAt Config.ref 0 1 0 4)) = some (false, 1, 0, false, 0, 0) :=
  ⟨by decide, by decide⟩

/-- V-DEC-9, the EOT. -/
theorem test_eot_malformed :
    cur (exec .eot (cursorAt Config.ref 1 1 2 0)) = some (0, 0, 0, 0) ∧
      regs (exec .eot (cursorAt Config.ref 1 1 2 0)) = some (true, 0, 1, true, 0, 0) :=
  ⟨by decide, by decide⟩

/-- V-DEC-10, the first EOT. -/
theorem test_eot_publishes :
    regs (exec .eot (cursorAt Config.ref 0 0 0 1)) = some (true, 0, 0, true, 1, 0) := by decide

/-- V-DEC-15. -/
theorem test_ignore : nextState? (exec (.ignore 0xFF#8) (cursorAt Config.ref 1 0 1 0)) = some (cursorAt Config.ref 1 0 1 0) := by
  decide

/-- V-DEC-2, bytes `2C` and `0A`. -/
theorem test_rx_byte :
    cur (exec (.rxByte 0x2C#8) (cursorAt Config.ref 0 2 1 0)) = some (1, 0, 1, 0) ∧
      cur (exec (.rxByte 0x0A#8) (cursorAt Config.ref 0 2 1 0)) = some (0, 2, 1, 0) :=
  ⟨by decide, by decide⟩

/-- V-RST-1: the receiver alone; V-RST-2: the sender alone. -/
theorem test_reset :
    (nextState? (exec (.reset .receiver) showing)).map (fun s => s.rx.maxTimestep) = some 0 ∧
      pump (exec (.reset .sender) (sending 0 1)) = some ⟨0, 0, 0, true, .ok, none⟩ :=
  ⟨by decide, by decide⟩

/-- V-ANI-3: from 2 of 3 back to 0. -/
theorem test_anim_tick_wraps :
    (nextState? (exec .animTick (withRx fun r => { r with maxTimestep := 3, current_timestep := 2 }))).map
      (fun s => s.rx.current_timestep) = some 0 := by decide

/-- V-ANI-3: from 0 to 1. -/
theorem test_anim_tick_advances :
    (nextState? (exec .animTick (withRx fun r => { r with maxTimestep := 3 }))).map
      (fun s => s.rx.current_timestep) = some 1 := by decide

/-- V-PWM-1: the third tick of `duty` 3, and the wrap. -/
theorem test_pwm_tick_blanks :
    (nextState? (exec .pwmTick (withRx fun r => { r with duty := 3, pwm_cnt := 2 }))).map
        (fun s => (s.rx.pwm_cnt, s.rx.blank)) = some (3, true) ∧
      (nextState? (exec .pwmTick (withRx fun r => { r with duty := 3, pwm_cnt := 255, blank := true }))).map
        (fun s => (s.rx.pwm_cnt, s.rx.blank)) = some (0, false) :=
  ⟨by decide, by decide⟩

/-- V-PWM-2: the match at 0 overrides the release. -/
theorem test_pwm_tick_zero_duty :
    (nextState? (exec .pwmTick (withRx fun r => { r with duty := 0, pwm_cnt := 255 }))).map
      (fun s => (s.rx.pwm_cnt, s.rx.blank)) = some (0, true) := by decide

/-- V-SCN-1: the first and the third pass of a dark display. -/
theorem test_scan_step_dark :
    scan (exec .scanStep State.reset) = some (0, false, none, none, 50, .up) ∧
      scan (exec .scanStep (withRx fun r => { r with duty := 90 })) = some (0, false, none, none, 100, .down) :=
  ⟨by decide, by decide⟩

/-- V-SCN-2: ASSERT of point 1 of timestep 0, and DEASSERT. -/
theorem test_scan_step_lights :
    scan (exec .scanStep (showing.setRx { showing.rx with scan_i := 1 })) =
        some (1, true, some 2, some 10, 10, .up) ∧
      scan (exec .scanStep
        (showing.setRx { showing.rx with scan_i := 1, scan_lit := true, row_drv := some 2, col_drv := some 10 })) =
        some (2, false, none, none, 10, .up) :=
  ⟨by decide, by decide⟩

/-- V-ENC-1. -/
theorem test_select_arms :
    pump (exec (.select 0) State.reset) = some ⟨2, 0, 0, false, .ok, none⟩ ∧
      (nextState? (exec (.select 0) State.reset)).map (fun s => s.tx.txq.map List.length) = some [20, 1] :=
  ⟨by decide, by decide⟩

/-- V-ENC-2: during a transmission; the index is tested first. -/
theorem test_select_refuses :
    pump (exec (.select 2) (sending 0 0)) = some ⟨2, 0, 0, false, .transmissionInProgress, none⟩ ∧
      pump (exec (.select 3) (sending 0 0)) = some ⟨2, 0, 0, false, .invalidPatternIndex, none⟩ :=
  ⟨by decide, by decide⟩

/-- V-TXP-1: a byte of the last string, then its terminator. -/
theorem test_tx_poll_emits :
    pump (exec (.txPoll true) (sending 1 0)) = some ⟨2, 1, 1, false, .ok, some 0x04#8⟩ ∧
      pump (exec (.txPoll true) (sending 1 1)) = some ⟨2, 0, 0, true, .ok, some 0x00#8⟩ :=
  ⟨by decide, by decide⟩

/-- V-TXP-1: the terminator of a string that is not the last; V-TXP-3: nothing when idle. -/
theorem test_tx_poll_next_string :
    pump (exec (.txPoll true) (sending 0 1)) = some ⟨2, 1, 0, false, .ok, some 0x00#8⟩ ∧
      nextState? (exec (.txPoll true) State.reset) = some State.reset :=
  ⟨by decide, by decide⟩

/-- P2 after step 10: `row_out[3]` and `col_out[6]` are 1, every other line 0. -/
theorem test_outputs :
    let s := showing.setRx { showing.rx with row_drv := some 3, col_drv := some 6 }
    Config.ref.ROW_PIN.map s.rowOut = [false, true, false] ∧
      Config.ref.COL_PIN.map s.colOut = [false, true, false, false, false, false] :=
  ⟨by decide, by decide⟩

/-- R31, R32: a canonical buffer; its counts and points are kept apart, and a write of 0 removes the count. -/
theorem test_memory_canonical :
    showing.rx.fb.wf = true ∧ (showing.rx.fb.writeCount false 0 0).np = [(⟨false, 1⟩, 1)] :=
  ⟨by decide, by decide⟩

/-- The word of a row placed with `withFetchWord` is the next event (V-ANI-3's first tick). -/
theorem test_fetch_word :
    (nextState? (step ((withRx fun r => { r with maxTimestep := 3 }).withFetchWord 5 0b00100))).map
      (fun s => (s.rx.current_timestep, s.inputs)) = some (1, []) := by decide

/-- V-ORD-1: SELECT before TX_POLL in one cycle; the poll is still to come after the first step. -/
theorem test_cycle_order :
    fetch Config.ref [{ Ports.quiet with sel_valid := true, tx_poll := true, tx_ready := true }] =
      (some (.select 0), [{ Ports.quiet with tx_poll := true, tx_ready := true }]) := by decide

/-- R231. -/
theorem test_error_codes :
    [ErrorClass.invalidPatternIndex, .transmissionInProgress, .bufferOverflow, .malformedFrame].map ErrorClass.code =
      [1, 2, 3, 4] := by decide

/-! ### Every statement that has hypotheses: a state that meets them

Where a statement's hypothesis is that an event or a step answers a next state, the witness exhibits that state. -/

/-- The three cases of R162 at the edges: the window's last cell of an empty slot; the same cell with the slot index at
MAX_TIMESTEPS, and with `pidx` at CAP; the first column past the window. -/
theorem test_meets_one :
    (CellInWindow Config.ref 2 5 ∧ 3 < Config.ref.MAX_TIMESTEPS ∧ 17 < Config.ref.CAP) ∧
      ¬4 < Config.ref.MAX_TIMESTEPS ∧ ¬18 < Config.ref.CAP ∧ ¬CellInWindow Config.win 1 5 ∧ CellInWindow Config.win 1 4 := by
  unfold CellInWindow; decide

/-- Both kinds of configuration (R12). -/
theorem test_meets_config_constraints :
    ConfigConstraints Config.ref ∧ ¬ConfigConstraints { Config.ref with DUTY_MAX := 256 } := by
  refine ⟨?_, fun h => absurd h.2.2.2.2.2.2.2.2.2.2.2.1.2 (by decide)⟩
  refine ⟨?_, ?_, ?_, ?_, ?_, ?_, ?_, ?_, ?_, ?_, ?_, ?_, ?_, ?_, ?_, ?_, ?_, ?_⟩ <;> decide

theorem test_meets_decode_inverts_encode :
    Config.ref.wf = true ∧ (Instr.select 255).wf Config.ref = true ∧ (Instr.ignore 0x32#8).wf Config.ref = true := by decide

/-- No sample, a sample with its last strobe, with two strobes, with `rx_valid`, and with none. -/
theorem test_meets_step :
    State.reset.cfg.wf = true ∧ State.reset.inputs = [] ∧ ({ Ports.quiet with tx_poll := true } : Ports).first = some .txPoll ∧
      ({ Ports.quiet with anim_tick := true, scan_step := true } : Ports).first = some .animTick ∧
      ({ Ports.quiet with rx_valid := true } : Ports).first = some .rxValid ∧ Ports.quiet.first = none := by decide

theorem test_meets_strobes :
    fetch Config.ref [{ Ports.quiet with anim_tick := true }] = (some .animTick, []) ∧
      fetch Config.ref [Ports.quiet] = (none, []) ∧ fetch Config.ref [] = (none, []) := by decide

/-- V-ORD-1's receiver half. -/
theorem test_meets_cycle :
    let p := { Ports.quiet with rx_rst := true, rx_valid := true, rx_data := 0x31#8 }
    cycleEvents Config.ref p = [.reset .receiver, .rxByte 0x31#8] ∧
      ∃ t, runEvents (cycleEvents Config.ref p) { State.reset with inputs := [p] } = .next t :=
  ⟨by decide, _, rfl⟩

/-- A byte that is ignored, between the two separators of the opcode map. -/
theorem test_meets_ignored : (0x32#8 : Byte) ∉ activeBytes Config.ref ∧ (0x03#8 : Byte) ∉ activeBytes Config.ref := by decide

/-- The four cases of R165, the third at the last slot and the fourth at the full buffer, and the two of R166. -/
theorem test_meets_frameEnd :
    (withRx fun r => { r with after_eot := true }).rx.frameEmpty = true ∧ State.reset.rx.after_eot = false ∧
      (cursorAt Config.ref 0 1 0 3).rx.frameEmpty = false ∧ (3 < Config.ref.MAX_TIMESTEPS ∧ ¬4 < Config.ref.MAX_TIMESTEPS) ∧
      (cursorAt Config.ref 1 0 0 4).rx.frameEmpty = false := by decide

/-- An overflow by ONE and one by FRAMEEND, and an event that raises nothing. -/
theorem test_meets_overflow :
    byteClass Config.ref (.rxByte 0x31#8) = some .one ∧ byteClass Config.ref .frameEnd = some .frameEnd ∧
      byteClass Config.ref .animTick = none ∧ CellInWindow Config.ref 0 0 ∧
      (∃ t, exec (.rxByte 0x31#8) (cursorAt Config.ref 0 0 0 4) = .next t) ∧
      (∃ t, exec .one (cursorAt Config.ref 0 0 18 0) = .next t) ∧
      ∃ t, exec .frameEnd (cursorAt Config.ref 0 1 0 4) = .next t :=
  ⟨by decide, by decide, by decide, by unfold CellInWindow; decide, ⟨_, rfl⟩, ⟨_, rfl⟩, ⟨_, rfl⟩⟩

/-- Both malformed cases. -/
theorem test_meets_malformed :
    (∃ t, exec .frameEnd State.reset = .next t) ∧ (∃ t, exec .eot (cursorAt Config.ref 0 1 0 0) = .next t) ∧
      State.reset.rx.mal_cnt ≤ Config.ref.DIAG_MAX ∧ Instr.frameEnd ≠ .reset .receiver :=
  ⟨⟨_, rfl⟩, ⟨_, rfl⟩, by decide, by decide⟩

/-- An event that publishes nothing, beside a pattern on display. -/
theorem test_meets_live_bank :
    byteClass showing.cfg .one ≠ some .eot ∧ showing.rx.liveCount 0 = 2 ∧ ∃ t, exec .one showing = .next t :=
  ⟨by decide, by decide, _, rfl⟩

theorem test_meets_eot_bytes : ∀ b ∈ [0x00#8, 0x0A#8, 0x00#8], b = 0x00#8 ∨ b ∉ activeBytes Config.ref := by decide

/-- The byte event of one agent and the tick of another (R168). -/
theorem test_meets_decoding :
    (∀ i ∈ [Instr.animTick, .rxByte 0x31#8], i ≠ .reset .receiver) ∧
      ∃ t, runEvents [Instr.animTick, .rxByte 0x31#8] State.reset = .next t :=
  ⟨by decide, _, rfl⟩

/-- The receivers of CFG_REF and CFG_WIN on one wire (R174). -/
theorem test_meets_one_wire :
    Config.win.wf = true ∧
      Config.win = { Config.ref with
        ROW_OFFSET := Config.win.ROW_OFFSET
        ROW_SPAN := Config.win.ROW_SPAN
        COL_OFFSET := Config.win.COL_OFFSET
        COL_SPAN := Config.win.COL_SPAN
        ROW_PIN := Config.win.ROW_PIN
        COL_PIN := Config.win.COL_PIN } ∧
      Receiver.reset Config.win = { Receiver.reset Config.ref with fb := ⟨[], []⟩ } := by decide

/-- Every pattern of the reference library, one of them filling the buffer, and a receiver at the start of a message. -/
theorem test_meets_messages :
    State.reset.cfg.wf = true ∧
    (∀ p ∈ Config.refLibrary, (∀ f ∈ p.frames, Config.ref.wfFrame f = true) ∧ p.frames.length ≤ Config.ref.MAX_TIMESTEPS) ∧
      Config.refLibrary.map (fun p => p.frames.length) = [1, 2, 4] ∧ AtMessageStart State.reset.rx := by
  unfold AtMessageStart; decide

/-- A window that covers the whole matrix. -/
theorem test_meets_full_window :
    Config.ref.ROW_OFFSET = 0 ∧ Config.ref.ROW_SPAN = Config.ref.ROWS ∧ Config.ref.COL_OFFSET = 0 ∧
      Config.ref.COL_SPAN = Config.ref.COLS := by decide

/-- Two buffers made by writes in another order: canonical, with the same reads. -/
theorem test_meets_canonical :
    let a := Memory.writePoint ⟨[], []⟩ true 0 0 ⟨2, 5⟩
    (a.writePoint false 3 1 ⟨4, 5⟩).wf = true ∧
      a.writePoint false 3 1 ⟨4, 5⟩ = (Memory.writePoint ⟨[], []⟩ false 3 1 ⟨4, 5⟩).writePoint true 0 0 ⟨2, 5⟩ := by decide

theorem test_meets_pack : 255 < 2 ^ Config.ref.PIN_W ∧ (Point.pack Config.ref ⟨255, 0⟩).toNat = 0xFF00 := by decide

/-- The three micro-steps: a lit point; a next point, and the last one; the end of the pass. -/
theorem test_meets_scan_step :
    (showing.rx.scan_lit = false ∧ showing.rx.slotCount = 2) ∧ showing.rx.livePoint 0 0 = some ⟨2, 5⟩ ∧
      showing.rx.livePoint 0 1 = some ⟨2, 10⟩ ∧ (2 ≤ 2 ∧ 1 < 2) ∧
      Config.ref.DUTY_MAX ≤ 60 + Config.ref.DUTY_STEP ∧ 59 + Config.ref.DUTY_STEP < Config.ref.DUTY_MAX ∧
      50 ≤ Config.ref.DUTY_MIN + Config.ref.DUTY_STEP ∧ Config.ref.DUTY_MIN + Config.ref.DUTY_STEP < 51 := by decide

/-- A count of 1 with no point written, and a pump that stands at the end of its queue: no run reaches either. -/
theorem test_meets_reading_no_value :
    (unwritten.rx.scan_lit = false ∧ unwritten.rx.current_timestep < unwritten.rx.maxTimestep ∧
        unwritten.rx.scan_i < unwritten.rx.liveCount 0 ∧ unwritten.rx.livePoint 0 0 = none) ∧
      (sending 2 0).tx.tx_idle = false ∧ (sending 2 0).tx.txq_count ≤ (sending 2 0).tx.q_idx := by decide

/-- A pass over the two points of the slot shown. -/
theorem test_meets_pass :
    let ps : List Point := [⟨2, 5⟩, ⟨2, 10⟩]
    showing.rx.scan_i = 0 ∧ showing.rx.row_drv = none ∧ showing.rx.col_drv = none ∧ showing.rx.slotCount = ps.length ∧
      ∀ k < ps.length, showing.rx.livePoint showing.rx.current_timestep k = ps[k]? := by decide

/-- `duty` 10 after reset, and one whole period of ticks. -/
theorem test_meets_rows_enabled :
    1 ≤ State.reset.rx.duty ∧ State.reset.rx.duty < Config.ref.PWM_PERIOD ∧ State.reset.rx.pwm_cnt < Config.ref.PWM_PERIOD ∧
      Config.ref.PWM_PERIOD ≤ State.reset.rx.pwm_cnt + 256 := by decide

/-- The three cases of R208, the last two at one count from each other. -/
theorem test_meets_pwm_tick :
    (0 + 1) % Config.ref.PWM_PERIOD = 1 ∧ (255 + 1) % Config.ref.PWM_PERIOD = 0 ∧ (254 + 1) % Config.ref.PWM_PERIOD = 255 := by
  decide

/-- A lit point: one line of each kind driven. -/
theorem test_meets_scan_inv :
    ScanInv Config.ref
      (showing.setRx { showing.rx with scan_lit := true, row_drv := some 2, col_drv := some 5 }).rx := by
  refine ⟨by decide, by decide, by decide, by decide, ?_, ?_⟩
  · rintro p hp; cases hp; decide
  · rintro p hp; cases hp; decide

/-- Both refusals and the acceptance, at the ends of the library. -/
theorem test_meets_select :
    Config.ref.NUM_PATTERNS ≤ 3 ∧ 2 < Config.ref.NUM_PATTERNS ∧ (sending 0 0).tx.tx_idle = false ∧
      State.reset.tx.tx_idle = true ∧ Config.ref.PATTERNS[2]?.isSome = true ∧ Config.ref.PATTERNS[3]? = none := by decide

/-- A lit LED (R210). -/
theorem test_meets_led :
    (showing.setRx { showing.rx with scan_lit := true, row_drv := some 2, col_drv := some 5 }).ledLit 2 5 = true := by decide

theorem test_meets_encode : ∀ p ∈ Config.refLibrary, Config.ref.wfPattern p = true := by decide

/-- The end of a string that is not the last, the end of the last one, and a byte inside a string. -/
theorem test_meets_tx_poll :
    (sending 0 1).tx.entry 0 = some [0x31#8] ∧ 0 + 1 ≠ (sending 0 1).tx.txq_count ∧
      (sending 1 1).tx.entry 1 = some [0x04#8] ∧ 1 + 1 = (sending 1 1).tx.txq_count ∧ [0x31#8][0]? = some 0x31#8 := by decide

/-- A step that emits and one that does not. -/
theorem test_meets_tx_valid :
    (nextState? (step { sending 0 0 with inputs := [{ Ports.quiet with tx_poll := true, tx_ready := true }] })).map
        State.txValid = some true ∧
      (nextState? (step (sending 0 0))).map State.txValid = some false := by decide

/-- An accepted SELECT, then events of both sub-blocks. -/
theorem test_meets_transmission :
    State.reset.cfg.wf = true ∧ State.reset.cfg.PATTERNS[0]?.isSome = true ∧
      (∀ e ∈ [Instr.txPoll true, .animTick, .select 1, .txPoll false], e ≠ .reset .sender) ∧
      ∃ t, exec (.select 0) State.reset = .next t ∧
        ∃ r, emitRun [.txPoll true, .animTick, .select 1, .txPoll false] t = some r :=
  ⟨by decide, by decide, by decide, _, rfl, _, rfl⟩

/-- The two sides of R147: some bytes of the 23 of MSG(WIPE) still to come, and none. -/
theorem test_meets_reselect :
    Config.refLibrary.head?.map (fun p => (msg Config.ref p).length) = some 23 ∧
      ∃ t, exec (.select 0) State.reset = .next t ∧
        (∃ r, emitRun ([true, false].map .txPoll) t = some r) ∧ ∃ r, emitRun ((List.replicate 23 true).map .txPoll) t = some r :=
  ⟨by decide, _, rfl, ⟨_, rfl⟩, _, rfl⟩

/-- The reset of either kind that R191's sequence may start from. -/
theorem test_meets_animation :
    State.reset.rx.current_timestep = 0 ∧ (∃ t, exec .eot showing = .next t) ∧ ∃ t, exec (.reset .receiver) showing = .next t :=
  ⟨by decide, ⟨_, rfl⟩, _, rfl⟩

/-- An event of each agent answers a next state (R53, R2). -/
theorem test_meets_single_writer :
    ∀ i ∈ [Instr.rxByte 0x31#8, .eot, .animTick, .pwmTick, .scanStep, .reset .receiver, .select 0, .txPoll true,
      .reset .sender], (nextState? (exec i showing)).isSome = true := by decide

/-- A receiver event and then a sender event. -/
theorem test_meets_commute :
    onReceiver .one = true ∧ onReceiver (.select 0) = false ∧
      ∃ t, exec .one State.reset = .next t ∧ ∃ u, exec (.select 0) t = .next u :=
  ⟨rfl, rfl, _, rfl, _, rfl⟩

/-- The reset state has the invariant, and a step from it answers a next state. -/
theorem test_meets_invariant : StateInv State.reset ∧ ∃ t, step State.reset = .next t := by
  refine ⟨⟨by decide, ?_, ?_, ?_, ?_, ?_, ?_, ?_⟩, _, step_idle (rest := []) (by decide) rfl⟩
  · unfold CursorInv; decide
  · exact ⟨rfl, fun _ _ => Nat.zero_le _, fun _ _ _ => rfl, fun _ _ _ _ => rfl, fun _ _ _ _ h => nomatch h⟩
  · exact ⟨fun _ _ h => (nomatch h), fun _ _ h => (nomatch h), fun _ _ h => (nomatch h)⟩
  · unfold AnimInv; decide
  · refine ⟨by decide, by decide, by decide, by decide, fun _ h => (nomatch h), fun _ h => (nomatch h)⟩
  · unfold BrightnessInv; decide
  · exact ⟨rfl, Nat.zero_le _, fun _ h => (nomatch h), Nat.zero_le _, Nat.zero_le _, fun h => (nomatch h)⟩

theorem test_meets_reachable : Reachable State.reset := .reset Config.ref [] (by decide)

end Sys2Proof.Tests
end

section
/-! PROOF. The family 00_scope.md: which configurations are refused (R12), what a step runs (R9, R237), and the
independence of the two sub-blocks (R2). -/

namespace Sys2Proof

namespace Config

variable {c : Config}

theorem wfPins_iff :
    c.wfPins = true ↔ 1 ≤ c.PIN_W ∧
      (c.ROW_PIN.length = c.ROW_SPAN ∧ c.ROW_PIN.Nodup ∧ ∀ p ∈ c.ROW_PIN, p < 2 ^ c.PIN_W) ∧
      (c.COL_PIN.length = c.COL_SPAN ∧ c.COL_PIN.Nodup ∧ ∀ p ∈ c.COL_PIN, p < 2 ^ c.PIN_W ∧ p ∉ c.ROW_PIN) := by
  have disjoint_iff : c.ROW_PIN.Disjoint c.COL_PIN ↔ ∀ p ∈ c.COL_PIN, p ∉ c.ROW_PIN :=
    List.disjoint_comm.trans Iff.rfl
  simp only [wfPins, Bool.and_eq_true, decide_eq_true_eq, List.all_eq_true, List.forall_mem_append,
    List.nodup_append', disjoint_iff, forall_and]
  tauto

theorem wfLibrary_iff :
    c.wfLibrary = true ↔ 1 ≤ c.SEL_W ∧ c.NUM_PATTERNS ≤ 2 ^ c.SEL_W ∧
      ∀ p ∈ c.PATTERNS, p.frames.length ≤ c.MAX_FRAMES ∧
        ∀ f ∈ p.frames, f.length = c.ROWS ∧ ∀ row ∈ f, row.length = c.COLS := by
  simp only [wfLibrary, Bool.and_eq_true, decide_eq_true_eq, List.all_eq_true, wfPattern_iff, wfFrame_iff, and_assoc]

theorem wfBytes_iff :
    c.wfBytes = true ↔
      (c.BYTE_ONE ≠ c.BYTE_ZERO ∧ c.BYTE_ONE ≠ c.BYTE_SEP ∧ c.BYTE_ZERO ≠ c.BYTE_SEP) ∧
        ∀ b ∈ [c.BYTE_ONE, c.BYTE_ZERO, c.BYTE_SEP], b ≠ 0x00#8 ∧ b ≠ 0x04#8 := by
  have fixed : BYTE_FRAME_END ≠ BYTE_EOT := by decide
  simp only [wfBytes, decide_eq_true_eq, List.nodup_cons, List.mem_cons, List.not_mem_nil, or_false, not_or,
    forall_eq_or_imp, forall_eq, List.nodup_nil, not_false_eq_true, and_true, ne_eq] at fixed ⊢
  tauto

/-- The check `step` makes is the table of R10, row by row (R12). -/
theorem wf_iff_configConstraints : c.wf = true ↔ Machine.ConfigConstraints c := by
  simp only [wf, wfGeometry, wfCapacity, wfWindow, wfDuty, Bool.and_eq_true, decide_eq_true_eq, wfPins_iff,
    wfLibrary_iff, wfBytes_iff, Machine.ConfigConstraints]
  tauto

end Config

namespace Machine

/-! ### No meaning refuses -/

theorem execOne_ne_refused (s : State) (r : Refusal) : execOne s ≠ .refused r := by
  unfold execOne
  split
  · split
    · split <;> nofun
    · nofun
  · nofun

theorem execScanStep_ne_refused (s : State) (r : Refusal) : execScanStep s ≠ .refused r := by
  unfold execScanStep
  split
  · nofun
  · split
    · split <;> nofun
    · nofun

theorem execTxPoll_ne_refused (ready : Bool) (s : State) (r : Refusal) : execTxPoll ready s ≠ .refused r := by
  unfold execTxPoll
  split
  · nofun
  · split
    · nofun
    · split
      · nofun
      · split <;> nofun

theorem execFrameEnd_ne_refused (s : State) (r : Refusal) : execFrameEnd s ≠ .refused r := by
  obtain ⟨t, ht⟩ := execFrameEnd_next s
  simp [ht]

/-- Every row of the opcode table is modelled: no event is refused. -/
theorem exec_ne_refused (i : Instr) (s : State) (r : Refusal) : exec i s ≠ .refused r := by
  cases i with
  | one => exact execOne_ne_refused s r
  | frameEnd => exact execFrameEnd_ne_refused s r
  | zero | rowEnd | ignore | pwmTick => nofun
  | eot => simp [exec, execEot_eq]
  | rxByte b =>
    simp only [exec, execRxByte]
    cases classify s.cfg b with
    | one => exact execOne_ne_refused s r
    | frameEnd => exact execFrameEnd_ne_refused s r
    | zero | rowEnd | ignore => nofun
    | eot => simp [execEot_eq]
  | reset target => cases target <;> nofun
  | animTick => simp [exec, execAnimTick_eq]
  | scanStep => exact execScanStep_ne_refused s r
  | select k =>
    obtain ⟨t, ht⟩ := execSelect_next k s
    simp [exec, ht]
  | txPoll ready => exact execTxPoll_ne_refused ready s r

/-- A step refuses nothing but an ill-formed configuration. -/
theorem step_ne_refused {s : State} (hw : s.cfg.wf = true) (r : Refusal) : step s ≠ .refused r := by
  rcases hf : fetch s.cfg s.inputs with ⟨i?, rest⟩
  cases i? with
  | none => simp [step_idle hw hf]
  | some i => rw [step_event hw hf]; exact exec_ne_refused i _ r

/-- The saturated cursor value lies beyond the window in both directions (R12). -/
theorem not_cellInWindow_cur_max {c : Config} (hw : c.wf = true) (k : Nat) :
    ¬CellInWindow c c.CUR_MAX k ∧ ¬CellInWindow c k c.CUR_MAX := by
  obtain ⟨-, -, hrows, -, hcols⟩ := Config.wf_geometry hw
  obtain ⟨hrow, hcol⟩ := Config.wf_window hw
  constructor
  · rintro ⟨⟨-, hlt⟩, -⟩
    omega
  · rintro ⟨-, -, hlt⟩
    omega

/-- Settles O3: the check of `step` is the table of R10, and no event refuses on its own. -/
theorem configurationRefusedExactlyWhenIllFormed : Obligations.ConfigurationRefusedExactlyWhenIllFormed := by
  intro s
  rw [← Config.wf_iff_configConstraints]
  exact ⟨fun hw => step_refuses (by simpa using hw), fun hw => ⟨step_ne_refused hw _, not_cellInWindow_cur_max hw⟩⟩

/-! ### What a step runs -/

/-- A sample stays at the head exactly while it has a strobe left to serve (R237). -/
theorem afterServing_eq (p : Ports) (rest : List Ports) :
    afterServing p rest = if p.first = none then rest else p :: rest := by
  unfold afterServing
  cases p.first <;> simp

theorem decode_sample (c : Config) {p : Ports} {st : Strobe} (h : p.first = some st) :
    decode c (.sample p) = .ok (p.event c st) := by
  simp only [decode, h]

/-- Settles O8, from what one fetch takes off the samples. -/
theorem stepRunsTheDecodedEvent : Obligations.StepRunsTheDecodedEvent := by
  intro s hw
  refine ⟨fun hi => ?nothing, fun p rest hi => ⟨fun st hst => ⟨decode_sample s.cfg hst, ?strobe⟩, fun _ u => ?byte,
    fun hq => ?quiet⟩⟩
  case nothing =>
    rw [step_idle hw (by rw [hi, fetch_nil]), ← hi]
    rfl
  case strobe =>
    rw [step_event hw (by rw [hi, fetch_strobe s.cfg hst]), afterServing_eq]
    rfl
  case byte => exact execRxByte_eq p.rx_data u
  case quiet =>
    rw [step_idle hw (by rw [hi, fetch_quiet s.cfg hq])]
    rfl

/-! ### The two sub-blocks share no state

Replacing the other sub-block's side commutes with every event. That an event leaves that side alone is the special case
of replacing it by itself. -/

/-- An outcome with its next state changed. -/
def mapNext (f : State → State) : Result → Result
  | .next s => .next (f s)
  | .fault r => .fault r
  | .refused r => .refused r

@[simp] theorem mapNext_next (f : State → State) (s : State) : mapNext f (.next s) = .next (f s) := rfl

theorem mapNext_ite (f : State → State) (p : Prop) [Decidable p] (a b : Result) :
    mapNext f (if p then a else b) = if p then mapNext f a else mapNext f b := apply_ite _ p a b

/-- Replaces the sender's side: its state and its output port. -/
def State.setTxSide (s : State) (x : Sender) (o : Option Byte) : State := { s with tx := x, tx_out := o }

@[simp] theorem State.setTxSide_cfg (s : State) (x : Sender) (o : Option Byte) : (s.setTxSide x o).cfg = s.cfg := rfl
@[simp] theorem State.setTxSide_rx (s : State) (x : Sender) (o : Option Byte) : (s.setTxSide x o).rx = s.rx := rfl
@[simp] theorem State.setTxSide_tx (s : State) (x : Sender) (o : Option Byte) : (s.setTxSide x o).tx = x := rfl
@[simp] theorem State.setTxSide_tx_out (s : State) (x : Sender) (o : Option Byte) : (s.setTxSide x o).tx_out = o := rfl

section
variable (s : State) (x : Sender) (o : Option Byte)

theorem execOne_setTxSide : execOne (s.setTxSide x o) = mapNext (·.setTxSide x o) (execOne s) := by
  simp only [execOne, State.setTxSide_cfg, State.setTxSide_rx, mapNext_ite]
  cases windowPoint s.cfg s.rx.row s.rx.col <;> rfl

theorem execFrameEnd_setTxSide : execFrameEnd (s.setTxSide x o) = mapNext (·.setTxSide x o) (execFrameEnd s) := by
  simp only [execFrameEnd, State.setTxSide_cfg, State.setTxSide_rx, mapNext_ite]
  rfl

theorem execEot_setTxSide : execEot (s.setTxSide x o) = mapNext (·.setTxSide x o) (execEot s) := by
  simp only [execEot, State.setTxSide_rx, mapNext_ite]
  rfl

theorem execRxByte_setTxSide (b : Byte) :
    execRxByte b (s.setTxSide x o) = mapNext (·.setTxSide x o) (execRxByte b s) := by
  simp only [execRxByte, State.setTxSide_cfg]
  cases classify s.cfg b with
  | one => exact execOne_setTxSide s x o
  | frameEnd => exact execFrameEnd_setTxSide s x o
  | eot => exact execEot_setTxSide s x o
  | zero | rowEnd | ignore => rfl

theorem execScanStep_setTxSide : execScanStep (s.setTxSide x o) = mapNext (·.setTxSide x o) (execScanStep s) := by
  simp only [execScanStep, State.setTxSide_rx, mapNext_ite]
  cases s.rx.livePoint s.rx.current_timestep s.rx.scan_i <;> rfl

/-- A receiver event does the same whatever the sender's side is (R2). -/
theorem exec_setTxSide {i : Instr} (hi : onReceiver i = true) :
    exec i (s.setTxSide x o) = mapNext (·.setTxSide x o) (exec i s) := by
  cases i with
  | one => exact execOne_setTxSide s x o
  | frameEnd => exact execFrameEnd_setTxSide s x o
  | eot => exact execEot_setTxSide s x o
  | rxByte b => exact execRxByte_setTxSide s x o b
  | scanStep => exact execScanStep_setTxSide s x o
  | animTick => simp only [exec, execAnimTick_eq, State.setTxSide_rx]; rfl
  | zero | rowEnd | ignore | pwmTick => rfl
  | reset target =>
    cases target with
    | receiver => rfl
    | sender => nomatch hi
  | select | txPoll => nomatch hi

end

section
variable (s : State) (r : Receiver)

theorem execSelect_setRx (k : Nat) : execSelect k (s.setRx r) = mapNext (·.setRx r) (execSelect k s) := by
  simp only [execSelect, State.setRx_cfg, State.setRx_tx]
  cases s.cfg.PATTERNS[k]? with
  | none => rfl
  | some p => simp only [mapNext_ite]; rfl

theorem execTxPoll_setRx (ready : Bool) :
    execTxPoll ready (s.setRx r) = mapNext (·.setRx r) (execTxPoll ready s) := by
  simp only [execTxPoll, State.setRx_tx, mapNext_ite]
  cases s.tx.entry s.tx.q_idx with
  | none => rfl
  | some str =>
    simp only [mapNext_ite]
    cases str[s.tx.byte_offset]? <;> rfl

/-- A sender event does the same whatever the receiver is (R2). -/
theorem exec_setRx {j : Instr} (hj : onReceiver j = false) :
    exec j (s.setRx r) = mapNext (·.setRx r) (exec j s) := by
  cases j with
  | select k => exact execSelect_setRx s r k
  | txPoll ready => exact execTxPoll_setRx s r ready
  | reset target =>
    cases target with
    | sender => rfl
    | receiver => nomatch hj
  | one | zero | rowEnd | frameEnd | eot | ignore | rxByte | animTick | pwmTick | scanStep => nomatch hj

end

section
variable {i j : Instr} {s t : State}

theorem exec_setTxSide_next (hi : onReceiver i = true) (h : exec i s = .next t) (x : Sender) (o : Option Byte) :
    exec i (s.setTxSide x o) = .next (t.setTxSide x o) := by
  rw [exec_setTxSide s x o hi, h, mapNext_next]

theorem exec_setRx_next (hj : onReceiver j = false) (h : exec j s = .next t) (r : Receiver) :
    exec j (s.setRx r) = .next (t.setRx r) := by
  rw [exec_setRx s r hj, h, mapNext_next]

/-- A receiver event leaves the sender's side alone (R2). -/
theorem exec_keeps_txSide (hi : onReceiver i = true) (h : exec i s = .next t) : t.tx = s.tx ∧ t.tx_out = s.tx_out := by
  have self : exec i s = .next (t.setTxSide s.tx s.tx_out) := exec_setTxSide_next hi h s.tx s.tx_out
  have ht : t = t.setTxSide s.tx s.tx_out := Host.Outcome.next.inj (h.symm.trans self)
  exact ⟨by rw [ht, State.setTxSide_tx], by rw [ht, State.setTxSide_tx_out]⟩

/-- A sender event leaves the receiver alone (R2). -/
theorem exec_keeps_rx (hj : onReceiver j = false) (h : exec j s = .next t) : t.rx = s.rx := by
  have self : exec j s = .next (t.setRx s.rx) := exec_setRx_next hj h s.rx
  have ht : t = t.setRx s.rx := Host.Outcome.next.inj (h.symm.trans self)
  rw [ht, State.setRx_rx]

/-- A receiver event changes the receiver only. -/
theorem eq_setRx_of_exec (hi : onReceiver i = true) (h : exec i s = .next t) : t = s.setRx t.rx := by
  obtain ⟨hcfg, hinputs, hno⟩ := exec_environment h
  obtain ⟨htx, hout⟩ := exec_keeps_txSide hi h
  exact State.ext_parts hcfg rfl htx hinputs hout hno

/-- A sender event changes the sender's side only. -/
theorem eq_setTxSide_of_exec (hj : onReceiver j = false) (h : exec j s = .next t) : t = s.setTxSide t.tx t.tx_out := by
  obtain ⟨hcfg, hinputs, hno⟩ := exec_environment h
  have hrx : t.rx = s.rx := exec_keeps_rx hj h
  exact State.ext_parts hcfg hrx rfl hinputs rfl hno

end

/-- Settles O49: each sub-block's events commute with replacing the other's side. -/
theorem senderAndReceiverAreIndependent : Obligations.SenderAndReceiverAreIndependent := by
  refine fun i s t h => ⟨fun hi => ?_, fun hj => ⟨exec_keeps_rx hj h, exec_setRx_next hj h⟩⟩
  obtain ⟨htx, hout⟩ := exec_keeps_txSide hi h
  refine ⟨htx, hout, fun x => ?_⟩
  calc exec i { s with tx := x }
    _ = .next (t.setTxSide x s.tx_out) := exec_setTxSide_next hi h x s.tx_out
    _ = .next { t with tx := x } := by rw [← hout]; rfl

/-- Settles O50: the sender event runs the same before the receiver event has changed the receiver, and the receiver event
the same after the sender event has changed the sender's side. -/
theorem receiverAndSenderEventsCommute : Obligations.ReceiverAndSenderEventsCommute := by
  intro i j s t u hi hj hst htu
  have hs : s = t.setRx s.rx := by rw [eq_setRx_of_exec hi hst]; rfl
  have hu : u = t.setTxSide u.tx u.tx_out := eq_setTxSide_of_exec hj htu
  refine ⟨s.setTxSide u.tx u.tx_out, ?_, ?_⟩
  · calc exec j s
      _ = exec j (t.setRx s.rx) := by rw [← hs]
      _ = .next (u.setRx s.rx) := exec_setRx_next hj htu s.rx
      _ = .next (s.setTxSide u.tx u.tx_out) := by rw [hs, hu]; rfl
  · calc exec i (s.setTxSide u.tx u.tx_out)
      _ = .next (t.setTxSide u.tx u.tx_out) := exec_setTxSide_next hi hst u.tx u.tx_out
      _ = .next u := by rw [← hu]

end Machine

end Sys2Proof
end

section
/-! PROOF. The family 10_state.md: the buffer's canonical form (R31, R32), reads without a value, the line outputs (R50,
R51), the writers of each state element (R53), and the invariant every step keeps. -/

namespace Sys2Proof.Machine

/-! ### Equal buffers are equal data -/

namespace Cells

variable {κ α : Type} [DecidableEq κ]

theorem mem_of_lookup {m : List (κ × α)} {a : κ} {x : α} (h : lookup m a = some x) : (a, x) ∈ m := by
  induction m with
  | nil => cases h
  | cons e m ih =>
    obtain ⟨k, v⟩ := e
    simp only [lookup] at h
    split at h
    · next hak =>
      cases h
      simp [hak]
    · exact List.mem_cons_of_mem _ (ih h)

/-- An address listed behind `k` in a rising list lies above it. -/
theorem lt_of_lookup {lt : κ → κ → Bool} {m : List (κ × α)} {k a : κ} {x : α}
    (hm : m.all (fun e => lt k e.1) = true) (h : lookup m a = some x) : lt k a = true :=
  List.all_eq_true.1 hm _ (mem_of_lookup h)

/-- The address at the head of a rising list is not listed again. -/
theorem lookup_tail_head {lt : κ → κ → Bool} (hirrefl : ∀ a, lt a a = false) {m : List (κ × α)} {k : κ}
    (hm : m.all (fun e => lt k e.1) = true) : lookup m k = none := by
  rw [Option.eq_none_iff_forall_ne_some]
  intro x hx
  simpa [hirrefl k] using lt_of_lookup hm hx

/-- Two rising lists that read the same at every address are the same: each head is listed in the other list, so neither
lies above the other. -/
theorem eq_of_lookup_eq {lt : κ → κ → Bool} (hirrefl : ∀ a, lt a a = false)
    (htrans : ∀ a b c, lt a b = true → lt b c = true → lt a c = true) :
    ∀ {m m' : List (κ × α)}, rising lt m = true → rising lt m' = true → (∀ a, lookup m a = lookup m' a) → m = m'
  | [], [], _, _, _ => rfl
  | [], (k, v) :: m', _, _, h => by simpa [lookup] using h k
  | (k, v) :: m, [], _, _, h => by simpa [lookup] using h k
  | (k, v) :: m, (k', v') :: m', hm, hm', h => by
    simp only [rising, Bool.and_eq_true] at hm hm'
    obtain ⟨hhead, hm⟩ := hm
    obtain ⟨hhead', hm'⟩ := hm'
    have hk : k = k' := by
      by_contra hne
      have above' : lt k' k = true := lt_of_lookup hhead' (by simpa [lookup, hne] using (h k).symm)
      have above : lt k k' = true := lt_of_lookup hhead (by simpa [lookup, Ne.symm hne] using h k')
      simpa [hirrefl k] using htrans _ _ _ above above'
    subst hk
    have hv : v = v' := by simpa [lookup] using h k
    have htail : m = m' := by
      refine eq_of_lookup_eq hirrefl htrans hm hm' fun a => ?_
      by_cases hak : a = k
      · rw [hak, lookup_tail_head hirrefl hhead, lookup_tail_head hirrefl hhead']
      · simpa [lookup, hak] using h a
    rw [hv, htail]

end Cells

theorem CountAddr.lt_irrefl (a : CountAddr) : a.lt a = false := by simp [CountAddr.lt]

theorem PointAddr.lt_irrefl (a : PointAddr) : a.lt a = false := by simp [PointAddr.lt]

/-- With no count of 0 listed, what an address reads says whether it is listed. -/
theorem Memory.lookup_np_eq {m : Memory} (hm : m.np.all (fun e => e.2 != 0) = true) (b : Bool) (t : Nat) :
    Cells.lookup m.np ⟨b, t⟩ = if m.readCount b t = 0 then none else some (m.readCount b t) := by
  rcases Option.eq_none_or_eq_some (Cells.lookup m.np ⟨b, t⟩) with hl | ⟨n, hl⟩
  · simp [Memory.readCount, hl]
  · have hn : n ≠ 0 := by simpa using List.all_eq_true.1 hm _ (Cells.mem_of_lookup hl)
    simp [Memory.readCount, hl, hn]

/-- Settles O30: both address spaces are rising lists with the same entry at every address. -/
theorem canonicalBuffersWithEqualReadsAreEqual : Obligations.CanonicalBuffersWithEqualReadsAreEqual := by
  intro m m' hm hm' hcount hpoint
  simp only [Memory.wf, Bool.and_eq_true] at hm hm'
  obtain ⟨⟨hnp, hnz⟩, hpt⟩ := hm
  obtain ⟨⟨hnp', hnz'⟩, hpt'⟩ := hm'
  have np_eq : m.np = m'.np := Cells.eq_of_lookup_eq CountAddr.lt_irrefl CountAddr.lt_trans hnp hnp' fun ⟨b, t⟩ => by
    rw [Memory.lookup_np_eq hnz, Memory.lookup_np_eq hnz', hcount]
  have pt_eq : m.pt = m'.pt := Cells.eq_of_lookup_eq PointAddr.lt_irrefl PointAddr.lt_trans hpt hpt' fun ⟨b, t, i⟩ =>
    hpoint b t i
  exact congrArg₂ Memory.mk np_eq pt_eq

/-! ### Reads without a value -/

theorem slotCount_of_lt {r : Receiver} (h : r.current_timestep < r.maxTimestep) :
    r.slotCount = r.liveCount r.current_timestep := if_pos h

theorem execScanStep_unwritten {s : State} (hlit : s.rx.scan_lit = false) (hi : s.rx.scan_i < s.rx.slotCount)
    (hp : s.rx.livePoint s.rx.current_timestep s.rx.scan_i = none) : execScanStep s = .fault .unwrittenPoint := by
  simp [execScanStep, hlit, hi, hp]

theorem execTxPoll_unwritten {s : State} (hidle : s.tx.tx_idle = false) (he : s.tx.entry s.tx.q_idx = none) :
    execTxPoll true s = .fault .unwrittenQueueEntry := by
  simp [execTxPoll, hidle, he]

theorem entry_of_le {x : Sender} {k : Nat} (h : x.txq_count ≤ k) : x.entry k = none := if_neg (by omega)

/-- Settles O35: the count read is the slot's, and no entry stands at or beyond `txq_count`. -/
theorem readingNoValueFaults : Obligations.ReadingNoValueFaults := by
  refine fun s => ⟨fun hlit ht hi hp => ?_, fun hidle hq => ?_⟩
  · exact execScanStep_unwritten hlit (by rwa [slotCount_of_lt ht]) hp
  · exact execTxPoll_unwritten hidle (entry_of_le hq)

/-! ### The line outputs -/

theorem rowOut_iff {s : State} {p : Nat} :
    s.rowOut p = true ↔ p ∈ s.cfg.ROW_PIN ∧ s.rx.row_drv = some p ∧ s.rx.blank = false := by
  simp only [State.rowOut, Bool.and_eq_true, decide_eq_true_eq, Bool.not_eq_true', and_assoc]

theorem colOut_iff {s : State} {p : Nat} : s.colOut p = true ↔ p ∈ s.cfg.COL_PIN ∧ s.rx.col_drv = some p := by
  simp only [State.colOut, Bool.and_eq_true, decide_eq_true_eq]

theorem ledLit_iff {s : State} {r c : Nat} : s.ledLit r c = true ↔ s.rowOut r = true ∧ s.colOut c = true :=
  Bool.and_eq_true_iff

/-- Settles O39, from what each output port says of the registers. -/
theorem linesFollowTheDriversAndTheBlanking : Obligations.LinesFollowTheDriversAndTheBlanking := by
  refine fun s p => ⟨fun hp => ?_, fun hp => ?_, fun r c => ledLit_iff⟩
  · rw [rowOut_iff, and_iff_right hp]
  · rw [colOut_iff, and_iff_right hp]

/-! ### The invariant: the cursor -/

section
variable {c : Config} {r : Receiver}

/-- The window ends before the saturated cursor value (R12). -/
theorem window_le_cur_max (hw : c.wf = true) :
    c.ROW_OFFSET + c.ROW_SPAN ≤ c.CUR_MAX ∧ c.COL_OFFSET + c.COL_SPAN ≤ c.CUR_MAX := by
  obtain ⟨-, -, hrows, -, hcols⟩ := Config.wf_geometry hw
  obtain ⟨hrow, hcol⟩ := Config.wf_window hw
  exact ⟨hrow.trans hrows, hcol.trans hcols⟩

/-- A saturating move right never lowers the count of window cells passed. -/
theorem cellsBefore_le_satIncCol {row col : Nat} (h : col ≤ c.CUR_MAX) :
    cellsBefore c row col ≤ cellsBefore c row (satInc c.CUR_MAX col) := by
  by_cases hlt : col < c.CUR_MAX
  · rw [satInc_of_lt hlt]
    exact cellsBefore_le_nextCol
  · rw [satInc_of_not_lt hlt, show col = c.CUR_MAX by omega]

/-- A saturating move right over a window cell counts it: the cursor saturates beyond the window. -/
theorem cellsBefore_satIncCol (hw : c.wf = true) {row col : Nat} (h : inWindow c row col = true) :
    cellsBefore c row (satInc c.CUR_MAX col) = cellsBefore c row col + 1 := by
  obtain ⟨-, -, hcol⟩ := inWindow_iff.1 h
  rw [satInc_of_lt (hcol.trans_le (window_le_cur_max hw).2), cellsBefore_nextCol h]

/-- A saturating move to the next row never lowers the count of window cells passed: at the saturated row the window has
been passed whole. -/
theorem cellsBefore_le_satIncRow (hw : c.wf = true) {row col : Nat} (h : row ≤ c.CUR_MAX) :
    cellsBefore c row col ≤ cellsBefore c (satInc c.CUR_MAX row) 0 := by
  by_cases hlt : row < c.CUR_MAX
  · rw [satInc_of_lt hlt]
    exact cellsBefore_le_nextRow
  · have hend : c.ROW_OFFSET + c.ROW_SPAN ≤ row := by
      have := (window_le_cur_max hw).1
      omega
    rw [satInc_of_not_lt hlt, show row = c.CUR_MAX by omega]
    simp only [cellsBefore]
    split_ifs <;> omega

/-- At the origin with no point recorded only the ranges are left to say. -/
theorem cursorInv_of_origin (hrow : r.row = 0) (hcol : r.col = 0) (hpidx : r.pidx = 0) (hts : r.ts ≤ c.MAX_TIMESTEPS)
    (hovf : r.ovf_cnt ≤ c.DIAG_MAX) (hmal : r.mal_cnt ≤ c.DIAG_MAX) : CursorInv c r :=
  ⟨by omega, by omega, hts, hovf, hmal, fun _ => hpidx, by omega⟩

/-- One column on, with as many points as the cells passed allow. -/
theorem cursorInv_nextCol (hw : c.wf = true) (h : CursorInv c r) {n : Nat} {fb : Memory}
    (hn : n ≤ cellsBefore c r.row (satInc c.CUR_MAX r.col)) :
    CursorInv c { r with fb := fb, pidx := n, col := satInc c.CUR_MAX r.col, after_eot := false } := by
  obtain ⟨hrow, -, hts, hovf, hmal, -, -⟩ := h
  refine ⟨hrow, satInc_le _ _, hts, hovf, hmal, fun hempty => ?_, hn⟩
  have hcol : satInc c.CUR_MAX r.col = 0 := (frameEmpty_iff.1 hempty).2
  have hpos := satInc_pos (Config.cur_max_pos hw) r.col
  omega

/-- The next row. -/
theorem cursorInv_nextRow (hw : c.wf = true) (h : CursorInv c r) :
    CursorInv c { r with row := satInc c.CUR_MAX r.row, col := 0, after_eot := false } := by
  obtain ⟨hrow, -, hts, hovf, hmal, -, hpidx⟩ := h
  refine ⟨satInc_le _ _, Nat.zero_le _, hts, hovf, hmal, fun hempty => ?_,
    hpidx.trans (cellsBefore_le_satIncRow hw hrow)⟩
  have hzero : satInc c.CUR_MAX r.row = 0 := (frameEmpty_iff.1 hempty).1
  have hpos := satInc_pos (Config.cur_max_pos hw) r.row
  omega

/-- R71: a slot has room for every point of a frame. -/
theorem CursorInv.pidx_le_window (h : CursorInv c r) : r.pidx ≤ c.ROW_SPAN * c.COL_SPAN := by
  obtain ⟨-, -, -, -, -, -, hpidx⟩ := h
  exact hpidx.trans cellsBefore_le_window

/-! ### The invariant: the frame buffer -/

theorem bufferInv_writePoint {m : Memory} (h : BufferInv c m) {b : Bool} {t i : Nat} {p : Point}
    (ht : t < c.MAX_TIMESTEPS) (hi : i < c.CAP) (hp : p.row_pin ∈ c.ROW_PIN ∧ p.col_pin ∈ c.COL_PIN) :
    BufferInv c (m.writePoint b t i p) := by
  obtain ⟨hwf, hcount, hslot, hpoint, hpins⟩ := h
  refine ⟨m.wf_writePoint b t i p hwf, hcount, hslot, fun b' t' i' hout => ?_, fun b' t' i' p' hread => ?_⟩
  · rw [Memory.readPoint_writePoint, if_neg (by omega)]
    exact hpoint b' t' i' hout
  · rw [Memory.readPoint_writePoint] at hread
    split at hread
    · cases hread
      exact hp
    · exact hpins b' t' i' p' hread

theorem bufferInv_writeCount {m : Memory} (h : BufferInv c m) {b : Bool} {t n : Nat} (ht : t < c.MAX_TIMESTEPS)
    (hn : n ≤ c.ROW_SPAN * c.COL_SPAN) : BufferInv c (m.writeCount b t n) := by
  obtain ⟨hwf, hcount, hslot, hpoint, hpins⟩ := h
  refine ⟨m.wf_writeCount b t n hwf, fun b' t' => ?_, fun b' t' ht' => ?_, hpoint, hpins⟩
  · rw [Memory.readCount_writeCount]
    split
    · exact hn
    · exact hcount b' t'
  · rw [Memory.readCount_writeCount, if_neg (by omega)]
    exact hslot b' t' ht'

/-- A point stays written when another, or the same, is written. -/
theorem readPoint_isSome_writePoint {m : Memory} {b b' : Bool} {t t' i i' : Nat} {p : Point}
    (h : (m.readPoint b' t' i').isSome = true) : ((m.writePoint b t i p).readPoint b' t' i').isSome = true := by
  rw [Memory.readPoint_writePoint]
  split
  · rfl
  · exact h

/-- A write to STAGE leaves LIVE's points alone (R73). -/
theorem readPoint_live_writePoint_stage (r : Receiver) (t t' i i' : Nat) (p : Point) :
    (r.fb.writePoint r.stage t i p).readPoint r.live t' i' = r.livePoint t' i' := by
  simp [Memory.readPoint_writePoint, Receiver.stage, Receiver.live, Receiver.livePoint]

/-- A write to STAGE leaves LIVE's counts alone (R73). -/
theorem readCount_live_writeCount_stage (r : Receiver) (t t' n : Nat) :
    (r.fb.writeCount r.stage t n).readCount r.live t' = r.liveCount t' := by
  simp [Memory.readCount_writeCount, Receiver.stage, Receiver.live, Receiver.liveCount]

/-- Recording a point writes the one entry that `pidx` comes to cover. -/
theorem writtenInv_recordPoint (h : WrittenInv c r) (p : Point) :
    WrittenInv c { r with fb := r.fb.writePoint r.stage r.ts r.pidx p, pidx := r.pidx + 1 } := by
  obtain ⟨hlive, hstaged, hframe⟩ := h
  refine ⟨fun t i ht hi => readPoint_isSome_writePoint (hlive t i ht hi),
    fun t i ht hi => readPoint_isSome_writePoint (hstaged t i ht hi), fun i hts hi => ?_⟩
  rcases Nat.lt_succ_iff_lt_or_eq.1 hi with hlt | heq
  · exact readPoint_isSome_writePoint (hframe i hts hlt)
  · show ((r.fb.writePoint r.stage r.ts r.pidx p).readPoint r.stage r.ts i).isSome = true
    simp [Memory.readPoint_writePoint, heq]

/-- The count stored is that of the frame just decoded, whose points are written; LIVE's counts and those of the earlier
frames stay. -/
theorem writtenInv_storeCount (h : WrittenInv c r) (hts : r.ts < c.MAX_TIMESTEPS) :
    WrittenInv c { r with fb := r.fb.writeCount r.stage r.ts r.pidx, ts := r.ts + 1, row := 0, col := 0, pidx := 0,
                          after_eot := false } := by
  obtain ⟨hlive, hstaged, hframe⟩ := h
  refine ⟨fun t i ht hi => hlive t i ht ?_, fun t i ht hi => ?_, fun i _ hi => absurd hi (Nat.not_lt_zero i)⟩
  · exact hi.trans_eq (readCount_live_writeCount_stage r r.ts t r.pidx)
  · have hi : i < (r.fb.writeCount r.stage r.ts r.pidx).readCount r.stage t := hi
    rw [Memory.readCount_writeCount] at hi
    rcases Nat.lt_succ_iff_lt_or_eq.1 ht with hlt | rfl
    · rw [if_neg (by omega)] at hi
      exact hstaged t i hlt hi
    · rw [if_pos ⟨rfl, rfl⟩] at hi
      exact hframe i hts hi

/-- Publishing makes the staged frames live and begins a message with nothing staged. -/
theorem writtenInv_publish (h : WrittenInv c r) :
    WrittenInv c { r with live_sel := !r.live_sel, maxTimestep := r.ts, current_timestep := 0, row := 0, col := 0,
                          pidx := 0, ts := 0, after_eot := true } := by
  obtain ⟨-, hstaged, -⟩ := h
  exact ⟨hstaged, fun t _ ht => absurd ht (Nat.not_lt_zero t), fun i _ hi => absurd hi (Nat.not_lt_zero i)⟩

/-- Dropping the frame being decoded leaves nothing of it to be written. -/
theorem writtenInv_startFrame (h : WrittenInv c r) :
    WrittenInv c { r with row := 0, col := 0, pidx := 0, after_eot := false } := by
  obtain ⟨hlive, hstaged, -⟩ := h
  exact ⟨hlive, hstaged, fun i _ hi => absurd hi (Nat.not_lt_zero i)⟩

/-! ### The invariant: animation, scan and brightness -/

/-- A count that SCAN reads fits a slot. -/
theorem slotCount_le_cap (hw : c.wf = true) (h : BufferInv c r.fb) : r.slotCount ≤ c.CAP := by
  obtain ⟨-, hcount, -⟩ := h
  unfold Receiver.slotCount
  split
  · exact (hcount _ _).trans (Config.window_le_cap hw)
  · exact Nat.zero_le _

/-- The ramp stays between its turnaround bounds (R206). -/
theorem rampAfter_bounds (hw : c.wf = true) {duty : Nat} (hmin : c.DUTY_MIN ≤ duty) (hmax : duty ≤ c.DUTY_MAX)
    (d : DutyDir) : c.DUTY_MIN ≤ (rampAfter c duty d).1 ∧ (rampAfter c duty d).1 ≤ c.DUTY_MAX := by
  obtain ⟨-, hbounds, -⟩ := Config.wf_duty hw
  cases d with
  | up =>
    simp only [rampAfter]
    split <;> dsimp only <;> omega
  | down =>
    simp only [rampAfter]
    split <;> dsimp only <;> omega

end

/-! ### The invariant: the receiver's events -/

/-- The receiver's part of the invariant. -/
structure ReceiverInv (c : Config) (r : Receiver) : Prop where
  cursor : CursorInv c r
  buffer : BufferInv c r.fb
  written : WrittenInv c r
  anim : AnimInv c r
  scan : ScanInv c r
  brightness : BrightnessInv c r

theorem stateInv_iff {s : State} : StateInv s ↔ s.cfg.wf = true ∧ ReceiverInv s.cfg s.rx ∧ SenderInv s.cfg s.tx :=
  ⟨fun ⟨hw, hcursor, hbuffer, hwritten, hanim, hscan, hbright, htx⟩ =>
    ⟨hw, ⟨hcursor, hbuffer, hwritten, hanim, hscan, hbright⟩, htx⟩,
   fun ⟨hw, ⟨hcursor, hbuffer, hwritten, hanim, hscan, hbright⟩, htx⟩ =>
    ⟨hw, hcursor, hbuffer, hwritten, hanim, hscan, hbright, htx⟩⟩

theorem receiverInv_reset {c : Config} (hw : c.wf = true) : ReceiverInv c (Receiver.reset c) where
  cursor := cursorInv_of_origin rfl rfl rfl (Nat.zero_le _) (Nat.zero_le _) (Nat.zero_le _)
  buffer := ⟨rfl, fun _ _ => Nat.zero_le _, fun _ _ _ => rfl, fun _ _ _ _ => rfl, fun _ _ _ _ h => nomatch h⟩
  written := ⟨fun t _ h => absurd h (Nat.not_lt_zero t), fun t _ h => absurd h (Nat.not_lt_zero t),
    fun i _ h => absurd h (Nat.not_lt_zero i)⟩
  anim := ⟨Nat.zero_le _, .inr ⟨rfl, rfl⟩⟩
  scan := by simp [ScanInv, Receiver.reset]
  brightness := ⟨le_rfl, (Config.wf_duty hw).2.1, Nat.two_pow_pos _⟩

section
variable {s : State}

/-- No error class moves anything but its counter, which saturates (R14, R27). -/
theorem receiverInv_raise (h : ReceiverInv s.cfg s.rx) (e : ErrorClass) : ReceiverInv s.cfg (s.raise e).rx := by
  obtain ⟨hrow, hcol, hts, hovf, hmal, hempty, hpidx⟩ := h.cursor
  cases e with
  | bufferOverflow => exact { h with cursor := ⟨hrow, hcol, hts, satInc_le _ _, hmal, hempty, hpidx⟩ }
  | malformedFrame => exact { h with cursor := ⟨hrow, hcol, hts, hovf, satInc_le _ _, hempty, hpidx⟩ }
  | invalidPatternIndex | transmissionInProgress => exact h

theorem receiverInv_nextCol (hw : s.cfg.wf = true) (h : ReceiverInv s.cfg s.rx) :
    ReceiverInv s.cfg s.nextCol.rx :=
  have ⟨_, hcol, _, _, _, _, hpidx⟩ := h.cursor
  { h with cursor := cursorInv_nextCol hw h.cursor (hpidx.trans (cellsBefore_le_satIncCol hcol)) }

theorem receiverInv_recordPoint (hw : s.cfg.wf = true) (h : ReceiverInv s.cfg s.rx)
    (hcell : inWindow s.cfg s.rx.row s.rx.col = true) (hts : s.rx.ts < s.cfg.MAX_TIMESTEPS)
    (hroom : s.rx.pidx < s.cfg.CAP) :
    ReceiverInv s.cfg (s.recordPoint (pinsAt s.cfg s.rx.row s.rx.col)).nextCol.rx :=
  have ⟨_, _, _, _, _, _, hpidx⟩ := h.cursor
  { h with
    cursor := cursorInv_nextCol hw h.cursor
      ((Nat.succ_le_succ hpidx).trans_eq (cellsBefore_satIncCol hw hcell).symm)
    buffer := bufferInv_writePoint h.buffer hts hroom (pinsAt_mem hw hcell)
    written := writtenInv_recordPoint h.written _ }

theorem receiverInv_nextRow (hw : s.cfg.wf = true) (h : ReceiverInv s.cfg s.rx) :
    ReceiverInv s.cfg s.nextRow.rx :=
  { h with cursor := cursorInv_nextRow hw h.cursor }

theorem receiverInv_startFrame (h : ReceiverInv s.cfg s.rx) : ReceiverInv s.cfg s.startFrame.rx :=
  have ⟨_, _, hts, hovf, hmal, _, _⟩ := h.cursor
  { h with
    cursor := cursorInv_of_origin rfl rfl rfl hts hovf hmal
    written := writtenInv_startFrame h.written }

theorem receiverInv_storeCount (h : ReceiverInv s.cfg s.rx) (hts : s.rx.ts < s.cfg.MAX_TIMESTEPS) :
    ReceiverInv s.cfg s.storeCount.startFrame.rx :=
  have ⟨_, _, _, hovf, hmal, _, _⟩ := h.cursor
  { h with
    cursor := cursorInv_of_origin rfl rfl rfl hts hovf hmal
    buffer := bufferInv_writeCount h.buffer hts h.cursor.pidx_le_window
    written := writtenInv_storeCount h.written hts }

theorem receiverInv_publish (h : ReceiverInv s.cfg s.rx) : ReceiverInv s.cfg s.publish.rx :=
  have ⟨_, _, hts, hovf, hmal, _, _⟩ := h.cursor
  { h with
    cursor := cursorInv_of_origin rfl rfl rfl (Nat.zero_le _) hovf hmal
    written := writtenInv_publish h.written
    anim := ⟨hts, (Nat.eq_zero_or_pos s.rx.ts).symm.imp_right fun hzero => ⟨hzero, rfl⟩⟩ }

theorem execOne_keeps_receiverInv {t : State} (hw : s.cfg.wf = true) (h : ReceiverInv s.cfg s.rx)
    (hx : execOne s = .next t) : ReceiverInv s.cfg t.rx := by
  obtain ⟨hcell, ⟨hts, hroom⟩, p, hp, rfl⟩ | ⟨-, -, rfl⟩ | ⟨-, rfl⟩ := execOne_cases hx
  · rw [windowPoint_of_inWindow hw hcell, Option.some_inj] at hp
    exact hp ▸ receiverInv_recordPoint hw h hcell hts hroom
  · exact receiverInv_nextCol (s := s.raise .bufferOverflow) hw (receiverInv_raise h _)
  · exact receiverInv_nextCol hw h

/-- No clause of the invariant reads `after_eot`. -/
theorem receiverInv_clearAfterEot (h : ReceiverInv s.cfg s.rx) : ReceiverInv s.cfg s.clearAfterEot.rx :=
  { h with }

theorem execFrameEnd_keeps_receiverInv {t : State} (h : ReceiverInv s.cfg s.rx) (hx : execFrameEnd s = .next t) :
    ReceiverInv s.cfg t.rx := by
  obtain ⟨-, -, rfl⟩ | ⟨-, -, rfl⟩ | ⟨-, hts, rfl⟩ | ⟨-, -, rfl⟩ := execFrameEnd_cases hx
  · exact receiverInv_clearAfterEot h
  · exact receiverInv_raise h _
  · exact receiverInv_storeCount h hts
  · exact receiverInv_startFrame (s := s.raise .bufferOverflow) (receiverInv_raise h _)

theorem execEot_keeps_receiverInv {t : State} (h : ReceiverInv s.cfg s.rx) (hx : execEot s = .next t) :
    ReceiverInv s.cfg t.rx := by
  rw [execEot_eq, Host.Outcome.next.injEq] at hx
  subst hx
  split
  · exact receiverInv_publish h
  · exact receiverInv_publish (s := s.raise .malformedFrame) (receiverInv_raise h _)

/-- A byte's action keeps the receiver's invariant. -/
theorem exec_byteClass_keeps_receiverInv {t : State} {i : Instr} {k : ByteClass} (hk : byteClass s.cfg i = some k)
    (hw : s.cfg.wf = true) (h : ReceiverInv s.cfg s.rx) (hx : exec i s = .next t) : ReceiverInv s.cfg t.rx := by
  rw [exec_of_byteClass hk] at hx
  cases k with
  | one => exact execOne_keeps_receiverInv hw h hx
  | zero => cases hx; exact receiverInv_nextCol hw h
  | rowEnd => cases hx; exact receiverInv_nextRow hw h
  | frameEnd => exact execFrameEnd_keeps_receiverInv h hx
  | eot => exact execEot_keeps_receiverInv h hx
  | ignore => cases hx; exact h

theorem execAnimTick_keeps_receiverInv {t : State} (h : ReceiverInv s.cfg s.rx) (hx : execAnimTick s = .next t) :
    ReceiverInv s.cfg t.rx := by
  obtain ⟨hmax, -⟩ := h.anim
  rw [execAnimTick_eq, Host.Outcome.next.injEq] at hx
  subst hx
  refine { h with anim := ⟨hmax, ?_⟩ }
  simp only [State.showTimestep_rx]
  split <;> omega

theorem execScanStep_keeps_receiverInv {t : State} (hw : s.cfg.wf = true) (h : ReceiverInv s.cfg s.rx)
    (hx : execScanStep s = .next t) : ReceiverInv s.cfg t.rx := by
  obtain ⟨hi, hlit, hrow, hcol, hrowPin, hcolPin⟩ := h.scan
  obtain ⟨-, -, -, -, hpins⟩ := h.buffer
  obtain ⟨hmin, hmax, hpwm⟩ := h.brightness
  obtain ⟨hl, rfl⟩ | ⟨-, hn, p, hp, rfl⟩ | ⟨-, -, rfl⟩ := execScanStep_cases hx
  · refine { h with scan := ⟨hlit hl, ?_⟩ }
    simp
  · have hroom : s.rx.scan_i < s.cfg.CAP := hn.trans_le (slotCount_le_cap hw h.buffer)
    obtain ⟨hpr, hpc⟩ := hpins _ _ _ _ hp
    refine { h with scan := ⟨hi, fun _ => hroom, ?_⟩ }
    simp [hpr, hpc]
  · obtain ⟨hmin', hmax'⟩ := rampAfter_bounds hw hmin hmax s.rx.duty_dir
    exact { h with
            scan := ⟨Nat.zero_le _, fun hl => (Nat.zero_le _).trans_lt (hlit hl), hrow, hcol, hrowPin, hcolPin⟩
            brightness := ⟨hmin', hmax', hpwm⟩ }

theorem receiverInv_countPwm (h : ReceiverInv s.cfg s.rx) : ReceiverInv s.cfg s.countPwm.rx :=
  have ⟨hmin, hmax, _⟩ := h.brightness
  { h with brightness := ⟨hmin, hmax, Nat.mod_lt _ (Nat.two_pow_pos _)⟩ }

/-- Every event keeps the receiver's invariant; the sender's events do not touch it (R2). -/
theorem exec_keeps_receiverInv {t : State} {i : Instr} (hw : s.cfg.wf = true) (h : ReceiverInv s.cfg s.rx)
    (hx : exec i s = .next t) : ReceiverInv s.cfg t.rx := by
  cases i with
  | one | zero | rowEnd | frameEnd | eot | ignore | rxByte => exact exec_byteClass_keeps_receiverInv rfl hw h hx
  | animTick => exact execAnimTick_keeps_receiverInv h hx
  | pwmTick => cases hx; exact receiverInv_countPwm h
  | scanStep => exact execScanStep_keeps_receiverInv hw h hx
  | select | txPoll => exact (exec_keeps_rx rfl hx).symm ▸ h
  | reset target =>
    cases target with
    | receiver => cases hx; exact receiverInv_reset hw
    | sender => cases hx; exact h

end

/-! ### The invariant: the sender's events -/

section
variable {c : Config} {x : Sender}

theorem senderInv_reset (c : Config) : SenderInv c Sender.reset := by simp [SenderInv, Sender.reset]

/-- The queue of a pattern of the library fits: its strings and the terminal entry have the lengths of R45. -/
theorem encodePattern_fits (hw : c.wf = true) {p : Pattern} (hp : c.wfPattern p = true) :
    (encodePattern c p).length ≤ c.MAX_FRAMES + 1 ∧ ∀ e ∈ encodePattern c p, e.length ≤ c.TXQ_ENTRY_MAX := by
  obtain ⟨hlen, hframes⟩ := Config.wfPattern_iff.1 hp
  obtain ⟨-, hrows, -, hcols, -⟩ := Config.wf_geometry hw
  refine ⟨by simpa [encodePattern] using hlen, fun e he => ?_⟩
  rcases List.mem_append.1 he with hframe | hlast
  · obtain ⟨f, hf, rfl⟩ := List.mem_map.1 hframe
    obtain ⟨hshape, hrow⟩ := Config.wfFrame_iff.1 (hframes f hf)
    have hne : f ≠ [] := List.ne_nil_of_length_pos (by rwa [hshape])
    rw [frameStr_length f hrow hne, hshape]
  · have hcells : 1 ≤ c.ROWS * c.COLS := Nat.mul_pos hrows hcols
    rw [List.mem_singleton.1 hlast, List.length_singleton]
    show 1 ≤ c.ROWS * c.COLS + c.ROWS - 1
    omega

theorem entry_isSome_of_lt {k : Nat} (hlen : x.txq.length = x.txq_count) (hk : k < x.txq_count) :
    ∃ e, x.entry k = some e :=
  ⟨x.txq[k], by rw [Sender.entry, if_pos hk, List.getElem?_eq_getElem]⟩

theorem mem_txq_of_entry {k : Nat} {e : List Byte} (h : x.entry k = some e) : e ∈ x.txq := by
  unfold Sender.entry at h
  split at h
  · exact List.mem_of_getElem? h
  · cases h

end

section
variable {s t : State}

theorem execSelect_keeps_senderInv {i : Nat} (hw : s.cfg.wf = true) (h : SenderInv s.cfg s.tx)
    (hx : execSelect i s = .next t) : SenderInv s.cfg t.tx := by
  obtain ⟨-, rfl⟩ | ⟨p, -, -, rfl⟩ | ⟨p, hp, -, rfl⟩ := execSelect_cases hx
  · exact h
  · exact h
  · obtain ⟨-, -, hlib⟩ := Config.wf_library hw
    obtain ⟨hcount, hstr⟩ := encodePattern_fits hw (hlib p (List.mem_of_getElem? hp))
    have hpos : 0 < (encodePattern s.cfg p).length := by simp [encodePattern]
    refine ⟨rfl, hcount, hstr, Nat.zero_le _, Nat.zero_le _, fun _ => ⟨hpos, ?_⟩⟩
    obtain ⟨e, he⟩ := entry_isSome_of_lt (x := (s.arm (encodePattern s.cfg p)).tx) rfl hpos
    exact ⟨e, he, Nat.zero_le _⟩

/-- At the end of a string the pump goes idle or stands at the start of the next entry. -/
theorem senderInv_nextString (h : SenderInv s.cfg s.tx) (hidle : s.tx.tx_idle = false) :
    SenderInv s.cfg s.nextString.tx := by
  obtain ⟨hlen, hcount, hstr, hq, hoff, harmed⟩ := h
  obtain ⟨hin, -⟩ := harmed hidle
  rw [State.nextString_tx]
  split
  · exact ⟨hlen, hcount, hstr, Nat.zero_le _, Nat.zero_le _, fun hi => nomatch hi⟩
  · have hnext : s.tx.q_idx + 1 < s.tx.txq_count := by omega
    obtain ⟨e, he⟩ := entry_isSome_of_lt hlen hnext
    exact ⟨hlen, hcount, hstr, by dsimp only; omega, Nat.zero_le _, fun _ => ⟨hnext, e, he, Nat.zero_le _⟩⟩

/-- After a byte of a string the pump stands at most at the string's end. -/
theorem senderInv_nextByte (h : SenderInv s.cfg s.tx) {str : List Byte} {b : Byte}
    (hentry : s.tx.entry s.tx.q_idx = some str) (hb : str[s.tx.byte_offset]? = some b)
    (hidle : s.tx.tx_idle = false) : SenderInv s.cfg s.nextByte.tx := by
  obtain ⟨hlen, hcount, hstr, hq, -, harmed⟩ := h
  obtain ⟨hin, -⟩ := harmed hidle
  obtain ⟨hroom, -⟩ := List.getElem?_eq_some_iff.1 hb
  exact ⟨hlen, hcount, hstr, hq, hroom.trans_le (hstr str (mem_txq_of_entry hentry)),
    fun _ => ⟨hin, str, hentry, hroom⟩⟩

theorem execTxPoll_keeps_senderInv {ready : Bool} (h : SenderInv s.cfg s.tx) (hx : execTxPoll ready s = .next t) :
    SenderInv s.cfg t.tx := by
  obtain ⟨-, rfl⟩ | ⟨-, hidle, str, hentry, ⟨-, rfl⟩ | ⟨b, -, hb, rfl⟩⟩ := execTxPoll_cases hx
  · exact h
  · exact senderInv_nextString h hidle
  · exact senderInv_nextByte h hentry hb hidle

/-- Every event keeps the sender's invariant; the receiver's events do not touch it (R2). -/
theorem exec_keeps_senderInv {i : Instr} (hw : s.cfg.wf = true) (h : SenderInv s.cfg s.tx)
    (hx : exec i s = .next t) : SenderInv s.cfg t.tx := by
  cases i with
  | one | zero | rowEnd | frameEnd | eot | ignore | rxByte | animTick | pwmTick | scanStep =>
    exact (exec_keeps_txSide rfl hx).1.symm ▸ h
  | select => exact execSelect_keeps_senderInv hw h hx
  | txPoll => exact execTxPoll_keeps_senderInv h hx
  | reset target =>
    cases target with
    | receiver => cases hx; exact h
    | sender => cases hx; exact senderInv_reset s.cfg

/-- Every event keeps the invariant. -/
theorem exec_keeps_stateInv {i : Instr} (h : StateInv s) (hx : exec i s = .next t) : StateInv t := by
  obtain ⟨hw, hrx, htx⟩ := stateInv_iff.1 h
  obtain ⟨hcfg, -, -⟩ := exec_environment hx
  rw [stateInv_iff, hcfg]
  exact ⟨hw, exec_keeps_receiverInv hw hrx hx, exec_keeps_senderInv hw htx hx⟩

end

/-- Settles O52: what precedes the event changes nothing the invariant speaks of, and the event keeps it. -/
theorem stepKeepsTheInvariant : Obligations.StepKeepsTheInvariant := by
  intro s t h hstep
  obtain ⟨-, ⟨rest, -, rfl⟩ | ⟨i, rest, -, hx⟩⟩ := step_cases hstep
  · exact h
  · exact exec_keeps_stateInv (s := s.beginEvent rest) h hx

/-! ### The writers of each state element

The registers of R53 in the groups that have one set of writers; the model's `decoderView` is the group of the decoder. -/

/-- The registers of SCAN (R36 to R41). -/
def Receiver.scanRegs (r : Receiver) : Nat × Bool × Option Nat × Option Nat × Nat × DutyDir :=
  (r.scan_i, r.scan_lit, r.row_drv, r.col_drv, r.duty, r.duty_dir)

/-- The registers of PWM (R42, R43). -/
def Receiver.pwmRegs (r : Receiver) : Nat × Bool := (r.pwm_cnt, r.blank)

/-- What SELECT alone writes of the sender (R45, R49). -/
def Sender.queueRegs (x : Sender) : List (List Byte) × Nat × SelStatus := (x.txq, x.txq_count, x.sel_status)

/-- The registers of the pump (R46 to R48). -/
def Sender.pumpRegs (x : Sender) : Nat × Nat × Bool := (x.q_idx, x.byte_offset, x.tx_idle)

section
variable {i : Instr} {s t : State}

theorem exec_byteClass_keeps_display {k : ByteClass} (hk : byteClass s.cfg i = some k) (hx : exec i s = .next t) :
    t.rx.scanRegs = s.rx.scanRegs ∧ t.rx.pwmRegs = s.rx.pwmRegs := by
  rw [exec_of_byteClass hk] at hx
  cases k with
  | one => obtain ⟨-, -, p, -, rfl⟩ | ⟨-, -, rfl⟩ | ⟨-, rfl⟩ := execOne_cases hx <;> exact ⟨rfl, rfl⟩
  | zero | rowEnd | ignore => cases hx; exact ⟨rfl, rfl⟩
  | frameEnd =>
    obtain ⟨-, -, rfl⟩ | ⟨-, -, rfl⟩ | ⟨-, -, rfl⟩ | ⟨-, -, rfl⟩ := execFrameEnd_cases hx <;> exact ⟨rfl, rfl⟩
  | eot =>
    simp only [execEot_eq, Host.Outcome.next.injEq] at hx
    subst hx
    split <;> exact ⟨rfl, rfl⟩

/-- What an event leaves alone in the receiver, by the agent that takes it (R53). -/
theorem exec_rx_cases (hx : exec i s = .next t) :
    (agentOf i = .dec ∧ t.rx.scanRegs = s.rx.scanRegs ∧ t.rx.pwmRegs = s.rx.pwmRegs) ∨
      (agentOf i = .anim ∧ t.rx.decoderView = s.rx.decoderView ∧ t.rx.scanRegs = s.rx.scanRegs ∧
        t.rx.pwmRegs = s.rx.pwmRegs) ∨
      (agentOf i = .pwm ∧ t.rx.decoderView = s.rx.decoderView ∧
        t.rx.current_timestep = s.rx.current_timestep ∧ t.rx.scanRegs = s.rx.scanRegs) ∨
      (agentOf i = .scan ∧ t.rx.decoderView = s.rx.decoderView ∧
        t.rx.current_timestep = s.rx.current_timestep ∧ t.rx.pwmRegs = s.rx.pwmRegs) ∨
      agentOf i = .rst .receiver ∨ t.rx = s.rx := by
  cases i with
  | one | zero | rowEnd | frameEnd | eot | ignore | rxByte => exact .inl ⟨rfl, exec_byteClass_keeps_display rfl hx⟩
  | animTick =>
    simp only [exec, execAnimTick_eq, Host.Outcome.next.injEq] at hx
    subst hx
    exact .inr (.inl ⟨rfl, rfl, rfl, rfl⟩)
  | pwmTick =>
    cases hx
    exact .inr (.inr (.inl ⟨rfl, rfl, rfl, rfl⟩))
  | scanStep =>
    refine .inr (.inr (.inr (.inl ⟨rfl, ?_⟩)))
    obtain ⟨-, rfl⟩ | ⟨-, -, p, -, rfl⟩ | ⟨-, -, rfl⟩ := execScanStep_cases hx <;> exact ⟨rfl, rfl, rfl⟩
  | select | txPoll => exact .inr (.inr (.inr (.inr (.inr (exec_keeps_rx rfl hx)))))
  | reset target =>
    cases target with
    | receiver => exact .inr (.inr (.inr (.inr (.inl rfl))))
    | sender => exact .inr (.inr (.inr (.inr (.inr (exec_keeps_rx rfl hx)))))

/-- What an event leaves alone in the sender, by the agent that takes it (R53). -/
theorem exec_tx_cases (hx : exec i s = .next t) :
    agentOf i = .sel ∨ agentOf i = .rst .sender ∨ (agentOf i = .txp ∧ t.tx.queueRegs = s.tx.queueRegs) ∨
      t.tx = s.tx := by
  cases i with
  | one | zero | rowEnd | frameEnd | eot | ignore | rxByte | animTick | pwmTick | scanStep =>
    exact .inr (.inr (.inr (exec_keeps_txSide rfl hx).1))
  | select => exact .inl rfl
  | txPoll ready =>
    refine .inr (.inr (.inl ⟨rfl, ?_⟩))
    obtain ⟨-, rfl⟩ | ⟨-, -, str, -, ⟨-, rfl⟩ | ⟨b, -, -, rfl⟩⟩ := execTxPoll_cases hx
    · rfl
    · rw [State.emit_tx, State.nextString_tx]
      split <;> rfl
    · rfl
  | reset target =>
    cases target with
    | receiver => exact .inr (.inr (.inr (exec_keeps_txSide rfl hx).1))
    | sender => exact .inr (.inl rfl)

theorem exec_keeps_decoderView (hx : exec i s = .next t) (hdec : agentOf i ≠ .dec)
    (hrst : agentOf i ≠ .rst .receiver) : t.rx.decoderView = s.rx.decoderView := by
  obtain ⟨ha, -⟩ | ⟨-, hkept, -⟩ | ⟨-, hkept, -⟩ | ⟨-, hkept, -⟩ | ha | hrx := exec_rx_cases hx
  · exact absurd ha hdec
  · exact hkept
  · exact hkept
  · exact hkept
  · exact absurd ha hrst
  · rw [hrx]

theorem exec_keeps_current_timestep (hx : exec i s = .next t) (hdec : agentOf i ≠ .dec) (hanim : agentOf i ≠ .anim)
    (hrst : agentOf i ≠ .rst .receiver) : t.rx.current_timestep = s.rx.current_timestep := by
  obtain ⟨ha, -⟩ | ⟨ha, -⟩ | ⟨-, -, hkept, -⟩ | ⟨-, -, hkept, -⟩ | ha | hrx := exec_rx_cases hx
  · exact absurd ha hdec
  · exact absurd ha hanim
  · exact hkept
  · exact hkept
  · exact absurd ha hrst
  · rw [hrx]

theorem exec_keeps_scanRegs (hx : exec i s = .next t) (hscan : agentOf i ≠ .scan)
    (hrst : agentOf i ≠ .rst .receiver) : t.rx.scanRegs = s.rx.scanRegs := by
  obtain ⟨-, hkept, -⟩ | ⟨-, -, hkept, -⟩ | ⟨-, -, -, hkept⟩ | ⟨ha, -⟩ | ha | hrx := exec_rx_cases hx
  · exact hkept
  · exact hkept
  · exact hkept
  · exact absurd ha hscan
  · exact absurd ha hrst
  · rw [hrx]

theorem exec_keeps_pwmRegs (hx : exec i s = .next t) (hpwm : agentOf i ≠ .pwm) (hrst : agentOf i ≠ .rst .receiver) :
    t.rx.pwmRegs = s.rx.pwmRegs := by
  obtain ⟨-, -, hkept⟩ | ⟨-, -, -, hkept⟩ | ⟨ha, -⟩ | ⟨-, -, -, hkept⟩ | ha | hrx := exec_rx_cases hx
  · exact hkept
  · exact hkept
  · exact absurd ha hpwm
  · exact hkept
  · exact absurd ha hrst
  · rw [hrx]

theorem exec_keeps_queueRegs (hx : exec i s = .next t) (hsel : agentOf i ≠ .sel) (hrst : agentOf i ≠ .rst .sender) :
    t.tx.queueRegs = s.tx.queueRegs := by
  obtain ha | ha | ⟨-, hkept⟩ | htx := exec_tx_cases hx
  · exact absurd ha hsel
  · exact absurd ha hrst
  · exact hkept
  · rw [htx]

theorem exec_keeps_pumpRegs (hx : exec i s = .next t) (hsel : agentOf i ≠ .sel) (htxp : agentOf i ≠ .txp)
    (hrst : agentOf i ≠ .rst .sender) : t.tx.pumpRegs = s.tx.pumpRegs := by
  obtain ha | ha | ⟨ha, -⟩ | htx := exec_tx_cases hx
  · exact absurd ha hsel
  · exact absurd ha hrst
  · exact absurd ha htxp
  · rw [htx]

/-- The decoder's events are those that act as a byte class. -/
theorem byteClass_isSome (c : Config) (i : Instr) : (byteClass c i).isSome = decide (agentOf i = .dec) := by
  cases i <;> rfl

/-- A byte's action other than EOT leaves the pattern on show alone: of the buffer it writes STAGE only (R73). -/
theorem exec_byteClass_keeps_live {k : ByteClass} (hk : byteClass s.cfg i = some k) (heot : k ≠ .eot)
    (hx : exec i s = .next t) :
    (∀ n, t.rx.liveCount n = s.rx.liveCount n) ∧ (∀ n j, t.rx.livePoint n j = s.rx.livePoint n j) ∧
      t.rx.live_sel = s.rx.live_sel ∧ t.rx.maxTimestep = s.rx.maxTimestep ∧
      t.rx.current_timestep = s.rx.current_timestep := by
  rw [exec_of_byteClass hk] at hx
  cases k with
  | one =>
    obtain ⟨-, -, p, -, rfl⟩ | ⟨-, -, rfl⟩ | ⟨-, rfl⟩ := execOne_cases hx
    · exact ⟨fun _ => rfl, fun n j => readPoint_live_writePoint_stage s.rx _ n _ j p, rfl, rfl, rfl⟩
    · exact ⟨fun _ => rfl, fun _ _ => rfl, rfl, rfl, rfl⟩
    · exact ⟨fun _ => rfl, fun _ _ => rfl, rfl, rfl, rfl⟩
  | zero | rowEnd | ignore =>
    cases hx
    exact ⟨fun _ => rfl, fun _ _ => rfl, rfl, rfl, rfl⟩
  | frameEnd =>
    obtain ⟨-, -, rfl⟩ | ⟨-, -, rfl⟩ | ⟨-, -, rfl⟩ | ⟨-, -, rfl⟩ := execFrameEnd_cases hx
    · exact ⟨fun _ => rfl, fun _ _ => rfl, rfl, rfl, rfl⟩
    · exact ⟨fun _ => rfl, fun _ _ => rfl, rfl, rfl, rfl⟩
    · exact ⟨fun n => readCount_live_writeCount_stage s.rx _ n _, fun _ _ => rfl, rfl, rfl, rfl⟩
    · exact ⟨fun _ => rfl, fun _ _ => rfl, rfl, rfl, rfl⟩
  | eot => exact absurd rfl heot

/-- EOT moves no entry of the buffer, and it restarts the animation (R76, R166). -/
theorem exec_eot_fb (hk : byteClass s.cfg i = some .eot) (hx : exec i s = .next t) :
    t.rx.fb = s.rx.fb ∧ t.rx.current_timestep = 0 := by
  simp only [exec_of_byteClass hk, execEot_eq, Host.Outcome.next.injEq] at hx
  subst hx
  split <;> exact ⟨rfl, rfl⟩

end

/-- Settles O48, group by group, from what an event of each agent leaves alone. -/
theorem eachStateElementHasItsWriters : Obligations.EachStateElementHasItsWriters := by
  intro i s t hx
  obtain ⟨hcfg, hinputs, -⟩ := exec_environment hx
  refine ⟨exec_keeps_decoderView hx, fun hdec heot => ?live, fun heot => exec_eot_fb heot hx,
    exec_keeps_current_timestep hx, fun hscan hrst => ?scan, fun hpwm hrst => ?pwm, fun hsel hrst => ?queue,
    fun hsel htxp hrst => ?pump, hcfg, hinputs⟩
  case live =>
    obtain ⟨k, hk⟩ := Option.isSome_iff_exists.1 ((byteClass_isSome s.cfg i).trans (decide_eq_true hdec))
    exact exec_byteClass_keeps_live hk (fun h => heot (h ▸ hk)) hx
  case scan => simpa [Receiver.scanRegs] using exec_keeps_scanRegs hx hscan hrst
  case pwm => simpa [Receiver.pwmRegs] using exec_keeps_pwmRegs hx hpwm hrst
  case queue => simpa [Sender.queueRegs] using exec_keeps_queueRegs hx hsel hrst
  case pump => simpa [Sender.pumpRegs] using exec_keeps_pumpRegs hx hsel htxp hrst

end Sys2Proof.Machine
end

section
/-! PROOF. The family 20_memory.md: no read is of an entry without a value (R70), the safety of every reachable state
(R35, R39, R70, R71), the live pattern between publishes (R73, R74), and the synchronisation by EOT (R65). -/

namespace Sys2Proof.Machine

/-! ### Under the invariant every event completes -/

section
variable {s : State}

/-- ONE completes: under a well-formed configuration the pin tables cover the window (R69). -/
theorem execOne_next (hw : s.cfg.wf = true) : ∃ t, execOne s = .next t := by
  rw [execOne_eq hw]
  split
  · split <;> exact ⟨_, rfl⟩
  · exact ⟨_, rfl⟩

/-- Every byte's action completes under a well-formed configuration. -/
theorem exec_byteClass_next {i : Instr} {k : ByteClass} (hk : byteClass s.cfg i = some k) (hw : s.cfg.wf = true) :
    ∃ t, exec i s = .next t := by
  rw [exec_of_byteClass hk]
  cases k with
  | one => exact execOne_next hw
  | frameEnd => exact execFrameEnd_next s
  | eot => exact ⟨_, execEot_eq s⟩
  | zero | rowEnd | ignore => exact ⟨_, rfl⟩

theorem lt_slotCount {r : Receiver} {i : Nat} (h : i < r.slotCount) :
    r.current_timestep < r.maxTimestep ∧ i < r.liveCount r.current_timestep := by
  unfold Receiver.slotCount at h
  split at h
  · next ht => exact ⟨ht, h⟩
  · exact absurd h (Nat.not_lt_zero i)

/-- SCAN_STEP completes: the point it reads lies below a live count, so it has been written (R70). -/
theorem execScanStep_next (h : WrittenInv s.cfg s.rx) : ∃ t, execScanStep s = .next t := by
  obtain ⟨hlive, -, -⟩ := h
  unfold execScanStep
  split
  · exact ⟨_, rfl⟩
  · split
    · next hi =>
      obtain ⟨ht, hcount⟩ := lt_slotCount hi
      obtain ⟨p, hp⟩ := Option.isSome_iff_exists.1 (hlive _ _ ht hcount)
      exact ⟨s.assertPoint p, by rw [hp]⟩
    · exact ⟨_, rfl⟩

/-- TX_POLL completes: while a transmission is armed the pump stands at an entry of the queue, not beyond its end. -/
theorem execTxPoll_next (h : SenderInv s.cfg s.tx) (ready : Bool) : ∃ t, execTxPoll ready s = .next t := by
  obtain ⟨-, -, -, -, -, harmed⟩ := h
  unfold execTxPoll
  split
  · exact ⟨_, rfl⟩
  · next hn =>
    have hidle : s.tx.tx_idle = false := by
      simp only [Bool.or_eq_true, not_or, Bool.not_eq_true] at hn
      exact hn.2
    obtain ⟨-, e, he, hoff⟩ := harmed hidle
    simp only [he]
    split
    · exact ⟨_, rfl⟩
    · next hne =>
      have hlt : s.tx.byte_offset < e.length := by omega
      exact ⟨_, by rw [List.getElem?_eq_getElem hlt]⟩

/-- Under the invariant every event completes. -/
theorem exec_next_of_stateInv (h : StateInv s) (i : Instr) : ∃ t, exec i s = .next t := by
  obtain ⟨hw, hrx, htx⟩ := stateInv_iff.1 h
  cases i with
  | one | zero | rowEnd | frameEnd | eot | ignore | rxByte => exact exec_byteClass_next rfl hw
  | animTick => exact ⟨_, execAnimTick_eq s⟩
  | pwmTick => exact ⟨_, rfl⟩
  | scanStep => exact execScanStep_next hrx.written
  | select k => exact execSelect_next k s
  | txPoll ready => exact execTxPoll_next htx ready
  | reset target => cases target <;> exact ⟨_, rfl⟩

end

/-- Settles O53: a step is an idle cycle or an event, and the event completes. -/
theorem noStepStopsUnderTheInvariant : Obligations.NoStepStopsUnderTheInvariant := by
  intro s h
  obtain ⟨hw, -⟩ := stateInv_iff.1 h
  rcases hf : fetch s.cfg s.inputs with ⟨i?, rest⟩
  cases i? with
  | none => exact ⟨_, step_idle hw hf⟩
  | some i =>
    rw [step_event hw hf]
    exact exec_next_of_stateInv (s := s.beginEvent rest) h i

/-! ### Reachable states -/

theorem stateInv_resetWith {c : Config} (hw : c.wf = true) (inputs : List Ports) :
    StateInv (State.resetWith c inputs) :=
  stateInv_iff.2 ⟨hw, receiverInv_reset hw, senderInv_reset c⟩

theorem stateInv_of_reachable {s : State} (h : Reachable s) : StateInv s := by
  induction h with
  | reset c inputs hw => exact stateInv_resetWith hw inputs
  | step s t _ hstep ih => exact stepKeepsTheInvariant s t ih hstep

/-- R39: a row line is driven exactly when a column line is. -/
theorem ScanInv.drivers_none_iff {c : Config} {r : Receiver} (h : ScanInv c r) :
    r.row_drv = none ↔ r.col_drv = none := by
  obtain ⟨-, -, hrow, hcol, -, -⟩ := h
  exact not_iff_not.1 (hrow.symm.trans hcol)

/-- Settles O54: a reachable state has the invariant, and each clause is read off it. -/
theorem everyReachableStateIsSafe : Obligations.EveryReachableStateIsSafe := by
  intro s hs
  have hinv : StateInv s := stateInv_of_reachable hs
  obtain ⟨hw, hrx, -⟩ := stateInv_iff.1 hinv
  obtain ⟨-, hcount, -⟩ := hrx.buffer
  obtain ⟨hlive, -, -⟩ := hrx.written
  obtain ⟨-, htimestep⟩ := hrx.anim
  have hcap : s.cfg.ROW_SPAN * s.cfg.COL_SPAN ≤ s.cfg.CAP := Config.window_le_cap hw
  exact ⟨noStepStopsUnderTheInvariant s hinv, hrx.cursor.pidx_le_window, hcap, fun b k => (hcount b k).trans hcap,
    fun k i hk hi => Option.isSome_iff_ne_none.1 (hlive k i hk hi), htimestep, hrx.scan.drivers_none_iff⟩

/-! ### The live pattern between publishes -/

theorem agentOf_eq_rst_iff {i : Instr} {target : SubBlock} : agentOf i = .rst target ↔ i = .reset target := by
  cases i <;> simp [agentOf]

/-- What SCAN reads of the buffer is part of what decoding writes. -/
theorem live_of_decoderView_eq {r r' : Receiver} (h : r'.decoderView = r.decoderView) :
    r'.live_sel = r.live_sel ∧ r'.maxTimestep = r.maxTimestep ∧ (∀ k, r'.liveCount k = r.liveCount k) ∧
      ∀ k j, r'.livePoint k j = r.livePoint k j := by
  have hsel : r'.live_sel = r.live_sel := congrArg DecoderView.live_sel h
  have hfb : r'.fb = r.fb := congrArg DecoderView.fb h
  refine ⟨hsel, congrArg DecoderView.maxTimestep h, fun k => ?_, fun k j => ?_⟩
  · simp only [Receiver.liveCount, Receiver.live, hsel, hfb]
  · simp only [Receiver.livePoint, Receiver.live, hsel, hfb]

/-- Settles O22: the decoder's own events write STAGE only, and no other event writes what decoding does (R53). -/
theorem livePatternChangesOnlyAtPublish : Obligations.LivePatternChangesOnlyAtPublish := by
  intro i s t hrst heot hx
  obtain ⟨hview, hlive, -⟩ := eachStateElementHasItsWriters i s t hx
  by_cases hdec : agentOf i = .dec
  · obtain ⟨hcount, hpoint, hsel, hmax, -⟩ := hlive hdec heot
    exact ⟨hsel, hmax, hcount, hpoint⟩
  · exact live_of_decoderView_eq (hview hdec (mt agentOf_eq_rst_iff.1 hrst))

/-! ### The cursor is a function of the bytes -/

/-- Where the decoder stands in a message (R22 to R26). -/
structure Cursor where
  row : Nat
  col : Nat
  pidx : Nat
  ts : Nat
  after_eot : Bool

/-- A receiver's cursor. -/
def Receiver.cursor (r : Receiver) : Cursor where
  row := r.row
  col := r.col
  pidx := r.pidx
  ts := r.ts
  after_eot := r.after_eot

/-- The cursor after a byte of a class (R162 to R167). -/
def Cursor.after (c : Config) (k : Cursor) : ByteClass → Cursor
  | .one =>
    { k with
      pidx := if inWindow c k.row k.col = true ∧ k.ts < c.MAX_TIMESTEPS ∧ k.pidx < c.CAP then k.pidx + 1 else k.pidx
      col := satInc c.CUR_MAX k.col
      after_eot := false }
  | .zero => { k with col := satInc c.CUR_MAX k.col, after_eot := false }
  | .rowEnd => { k with row := satInc c.CUR_MAX k.row, col := 0, after_eot := false }
  | .frameEnd =>
    if k.row = 0 ∧ k.col = 0 then { k with after_eot := false }
    else
      { row := 0, col := 0, pidx := 0, ts := if k.ts < c.MAX_TIMESTEPS then k.ts + 1 else k.ts, after_eot := false }
  | .eot => { row := 0, col := 0, pidx := 0, ts := 0, after_eot := true }
  | .ignore => k

section
variable {s t : State}

theorem execOne_cursor (hx : execOne s = .next t) : t.rx.cursor = s.rx.cursor.after s.cfg .one := by
  obtain ⟨hcell, hroom, p, -, rfl⟩ | ⟨-, hfull, rfl⟩ | ⟨hout, rfl⟩ := execOne_cases hx
  · simp [Receiver.cursor, Cursor.after, hcell, hroom]
  · simp [Receiver.cursor, Cursor.after, hfull]
  · simp [Receiver.cursor, Cursor.after, hout]

theorem execFrameEnd_cursor (hx : execFrameEnd s = .next t) :
    t.rx.cursor = s.rx.cursor.after s.cfg .frameEnd := by
  obtain ⟨he, -, rfl⟩ | ⟨he, heot, rfl⟩ | ⟨he, hts, rfl⟩ | ⟨he, hts, rfl⟩ := execFrameEnd_cases hx
  · simp [Receiver.cursor, Cursor.after, ← frameEmpty_iff, he]
  · simp [Receiver.cursor, Cursor.after, ← frameEmpty_iff, he, heot]
  · simp [Receiver.cursor, Cursor.after, ← frameEmpty_iff, he, hts]
  · simp [Receiver.cursor, Cursor.after, ← frameEmpty_iff, he, hts]

theorem execEot_cursor (hx : execEot s = .next t) : t.rx.cursor = s.rx.cursor.after s.cfg .eot := by
  rw [execEot_eq, Host.Outcome.next.injEq] at hx
  subst hx
  split <;> rfl

/-- A byte moves the cursor as its class says, whatever else the state holds. -/
theorem exec_byteClass_cursor {i : Instr} {k : ByteClass} (hk : byteClass s.cfg i = some k)
    (hx : exec i s = .next t) : t.rx.cursor = s.rx.cursor.after s.cfg k := by
  rw [exec_of_byteClass hk] at hx
  cases k with
  | one => exact execOne_cursor hx
  | frameEnd => exact execFrameEnd_cursor hx
  | eot => exact execEot_cursor hx
  | zero | rowEnd | ignore => cases hx; rfl

end

/-- The cursor after a byte string. -/
def Cursor.afterBytes (c : Config) (bs : List Byte) (k : Cursor) : Cursor :=
  bs.foldl (fun k b => k.after c (classify c b)) k

theorem Cursor.afterBytes_cons (c : Config) (b : Byte) (bs : List Byte) (k : Cursor) :
    k.afterBytes c (b :: bs) = (k.after c (classify c b)).afterBytes c bs := rfl

/-- Under a well-formed configuration a byte string is decoded to its end, and where the cursor ends is a function of
the bytes and of where it began. -/
theorem runEvents_rxBytes_cursor (bs : List Byte) {s : State} (hw : s.cfg.wf = true) :
    ∃ t, runEvents (rxBytes bs) s = .next t ∧ t.rx.cursor = s.rx.cursor.afterBytes s.cfg bs := by
  induction bs generalizing s with
  | nil => exact ⟨s, rfl, rfl⟩
  | cons b bs ih =>
    have hk : byteClass s.cfg (.rxByte b) = some (classify s.cfg b) := rfl
    obtain ⟨u, hu⟩ := exec_byteClass_next hk hw
    obtain ⟨hcfg, -, -⟩ := exec_environment hu
    obtain ⟨t, ht, hcursor⟩ := ih (hcfg ▸ hw)
    refine ⟨t, (runEvents_cons hu _).trans ht, ?_⟩
    rw [hcursor, hcfg, exec_byteClass_cursor hk hu, Cursor.afterBytes_cons]

/-- EOT forgets where the cursor stood. -/
theorem Cursor.afterBytes_eot {c : Config} (hw : c.wf = true) (bs : List Byte) (k k' : Cursor) :
    k.afterBytes c (0x04#8 :: bs) = k'.afterBytes c (0x04#8 :: bs) := by
  obtain ⟨-, -, -, -, heot⟩ := Config.classify_bytes hw
  simp only [afterBytes_cons, heot, after]

/-- Settles O25: the cursor after the bytes is a function of them, and after EOT of nothing else. -/
theorem eotSynchronisesTheDecoder : Obligations.EotSynchronisesTheDecoder := by
  intro s s' bs hw hcfg
  obtain ⟨t, ht, hcursor⟩ := runEvents_rxBytes_cursor (0x04#8 :: bs) hw
  obtain ⟨t', ht', hcursor'⟩ := runEvents_rxBytes_cursor (s := s') (0x04#8 :: bs) (hcfg ▸ hw)
  have hsame : t'.rx.cursor = t.rx.cursor := by
    rw [hcursor', hcursor, hcfg]
    exact Cursor.afterBytes_eot hw bs _ _
  exact ⟨t, t', ht, ht', by simpa [Receiver.cursor] using hsame⟩

end Sys2Proof.Machine
end

section
/-! PROOF. The family 30_encoding.md: the word of an instruction decodes to it and the word of a byte's meaning is the
byte (R95, R101), the byte opcode map (R95), the packed point (R93), and table words written out. -/

namespace Sys2Proof

variable {c : Config} {i : Instr} {b : Byte}

/-! ### Decoding the word of an instruction -/

/-- The event `decode` reads from a sample is the first of the sample's events (R238). -/
theorem decode_sample_of_events {p : Ports} {is : List Instr} (h : p.events c = i :: is) :
    decode c (.sample p) = .ok i := by
  have hhead : p.first.map (p.event c) = some i := by
    rw [Ports.first, ← List.head?_filter, ← List.head?_map]
    exact congrArg List.head? h
  obtain ⟨st, hst, rfl⟩ := Option.map_eq_some_iff.1 hhead
  exact Machine.decode_sample c hst

/-- The laws about the constructors, gathered. -/
theorem selfDescribing : ∀ i : Instr, Laws.SelfDescribing.Statement i
  | .one => Laws.SelfDescribing.one
  | .zero => Laws.SelfDescribing.zero
  | .rowEnd => Laws.SelfDescribing.rowEnd
  | .frameEnd => Laws.SelfDescribing.frameEnd
  | .eot => Laws.SelfDescribing.eot
  | .ignore b => Laws.SelfDescribing.ignore b
  | .rxByte b => Laws.SelfDescribing.rxByte b
  | .reset target => Laws.SelfDescribing.reset target
  | .animTick => Laws.SelfDescribing.animTick
  | .pwmTick => Laws.SelfDescribing.pwmTick
  | .scanStep => Laws.SelfDescribing.scanStep
  | .select i => Laws.SelfDescribing.select i
  | .txPoll ready => Laws.SelfDescribing.txPoll ready

/-- Settles O4: in either format the word stands for its instruction alone, so the decoder can read nothing else. -/
theorem decodeInvertsEncode : Obligations.DecodeInvertsEncode := by
  intro c i hc hi
  have h := selfDescribing i c hi hc
  generalize encode c i = w at h ⊢
  cases w with
  | byte b => exact congrArg Except.ok h
  | sample p => exact decode_sample_of_events h

/-! ### The meaning of a byte -/

/-- What a byte decodes to is well-formed: it is IGNORE only for a byte no other class matches (R95). -/
theorem decodeByte_wf (c : Config) (b : Byte) : (decodeByte c b).wf c = true := by
  obtain ⟨hk, -⟩ | ⟨hk, -⟩ | ⟨hk, -⟩ | ⟨hk, -⟩ | ⟨hk, -⟩ | ⟨hk, hb⟩ := Config.classify_cases c b
  case inr.inr.inr.inr.inr =>
    rw [decodeByte, hk]
    exact decide_eq_true hb
  all_goals rw [decodeByte, hk]; rfl

/-- The word of a byte's meaning is the byte: each class is that of the byte it names (R95). -/
theorem encode_decodeByte (c : Config) (b : Byte) : encode c (decodeByte c b) = .byte b := by
  obtain ⟨hk, hb⟩ | ⟨hk, hb⟩ | ⟨hk, hb⟩ | ⟨hk, hb⟩ | ⟨hk, hb⟩ | ⟨hk, -⟩ := Config.classify_cases c b
  case inr.inr.inr.inr.inr => rw [decodeByte, hk]; rfl
  all_goals rw [decodeByte, hk, hb]; rfl

/-- Settles O6. -/
theorem encodeInvertsByteDecode : Obligations.EncodeInvertsByteDecode :=
  fun c b => ⟨decodeByte_wf c b, encode_decodeByte c b⟩

/-- A well-formed instruction whose word is a byte is the meaning of that byte and of no other. -/
theorem decodeByte_eq_iff (hc : c.wf = true) (hi : i.wf c = true) {b' : Byte} (hword : encode c i = .byte b') :
    decodeByte c b = i ↔ b = b' := by
  constructor
  · intro h
    have hb : encode c i = .byte b := h ▸ encode_decodeByte c b
    exact EventWord.byte.inj (hb.symm.trans hword)
  · rintro rfl
    have h := decodeInvertsEncode c i hc hi
    rw [hword] at h
    exact Except.ok.inj h

/-- A byte is IGNORE exactly when it is none of the five active bytes (R95). -/
theorem decodeByte_eq_ignore_iff (hc : c.wf = true) : decodeByte c b = .ignore b ↔ b ∉ Machine.activeBytes c := by
  have hwf : (Instr.ignore b).wf c = true ↔ b ∉ Machine.activeBytes c := decide_eq_true_iff
  rw [← hwf]
  exact ⟨fun h => h ▸ decodeByte_wf c b, fun hi => (decodeByte_eq_iff hc hi rfl).2 rfl⟩

/-- Settles O5: the map is the encoder's, read backwards. -/
theorem byteOpcodeMap : Obligations.ByteOpcodeMap :=
  ⟨fun _ _ hc =>
    ⟨decodeByte_eq_iff hc rfl rfl, decodeByte_eq_iff hc rfl rfl, decodeByte_eq_iff hc rfl rfl,
      decodeByte_eq_iff hc rfl rfl, decodeByte_eq_iff hc rfl rfl, decodeByte_eq_ignore_iff hc⟩,
    by decide⟩

/-! ### Table words -/

/-- Settles O7: the decoder evaluated on each word. -/
theorem wordsDecodeAsTheTableSays : Obligations.WordsDecodeAsTheTableSays := by
  unfold Obligations.WordsDecodeAsTheTableSays
  decide

/-! ### The packed point -/

namespace Machine

/-- Packing loses nothing of pin ids of PIN_W bits. -/
theorem Point.toNat_pack {p : Point} (hrow : p.row_pin < 2 ^ c.PIN_W) (hcol : p.col_pin < 2 ^ c.PIN_W) :
    (p.pack c).toNat = p.row_pin * 2 ^ c.PIN_W + p.col_pin := by
  have hlt : p.row_pin * 2 ^ c.PIN_W + p.col_pin < 2 ^ (2 * c.PIN_W) := by
    calc p.row_pin * 2 ^ c.PIN_W + p.col_pin < (p.row_pin + 1) * 2 ^ c.PIN_W := by rw [Nat.succ_mul]; omega
      _ ≤ 2 ^ c.PIN_W * 2 ^ c.PIN_W := Nat.mul_le_mul_right _ hrow
      _ = 2 ^ (2 * c.PIN_W) := by rw [← Nat.pow_add, Nat.two_mul]
  rw [Point.pack, BitVec.toNat_ofNat, Nat.mod_eq_of_lt hlt]

/-- Unpacking inverts packing (R93). -/
theorem Point.unpack_pack {p : Point} (hrow : p.row_pin < 2 ^ c.PIN_W) (hcol : p.col_pin < 2 ^ c.PIN_W) :
    Point.unpack c (p.pack c) = p := by
  rw [Point.unpack, Point.toNat_pack hrow hcol, Nat.mul_add_mod_self_right, Nat.mod_eq_of_lt hcol, Nat.add_comm,
    Nat.add_mul_div_right _ _ (Nat.two_pow_pos _), Nat.div_eq_of_lt hcol, Nat.zero_add]

/-- The high half of a packed word is the row that unpacking reads. -/
theorem Point.toNat_highHalf (v : BitVec (2 * c.PIN_W)) :
    (v.extractLsb' c.PIN_W c.PIN_W).toNat = (Point.unpack c v).row_pin := by
  have hlt : v.toNat / 2 ^ c.PIN_W < 2 ^ c.PIN_W := by
    rw [Nat.div_lt_iff_lt_mul (Nat.two_pow_pos _), ← Nat.pow_add, ← Nat.two_mul]
    exact v.isLt
  rw [BitVec.extractLsb'_toNat, Nat.shiftRight_eq_div_pow, Nat.mod_eq_of_lt hlt, Point.unpack]

/-- The low half of a packed word is the column that unpacking reads. -/
theorem Point.toNat_lowHalf (v : BitVec (2 * c.PIN_W)) :
    (v.extractLsb' 0 c.PIN_W).toNat = (Point.unpack c v).col_pin := by
  rw [BitVec.extractLsb'_toNat, Nat.shiftRight_zero, Point.unpack]

end Machine

/-- Settles O31: the halves of a word are what unpacking reads from it, and unpacking inverts packing. -/
theorem packedPointHasRowPinHigh : Obligations.PackedPointHasRowPinHigh := by
  intro c p hrow hcol
  have hp := Machine.Point.unpack_pack hrow hcol
  exact ⟨by rw [Machine.Point.toNat_highHalf, hp], by rw [Machine.Point.toNat_lowHalf, hp], hp⟩

end Sys2Proof
end

section
/-! PROOF. The family 40_frame_encoder.md: where Encode puts each byte (R124, R125), and what SELECT answers (R121 to
R123). -/

namespace Sys2Proof.Machine

/-! ### The string of a frame -/

section
variable {c : Config} {f : Frame}

/-- A row that is not the last is followed by a separator and the string of the rows after it (R125). -/
theorem frameStr_cons_of_ne_nil {row : List Bool} (h : f ≠ []) :
    frameStr c (row :: f) = rowStr c row ++ c.BYTE_SEP :: frameStr c f := by
  obtain ⟨next, rest, rfl⟩ := List.exists_cons_of_ne_nil h
  rfl

/-- The string of a frame begins with the string of its first row. -/
theorem rowStr_prefix_frameStr (row : List Bool) (f : Frame) : rowStr c row <+: frameStr c (row :: f) := by
  cases f with
  | nil => exact List.prefix_rfl
  | cons next rest => exact List.prefix_append _ _

/-- Each row before the last takes one byte per column and one separator, so dropping the bytes of `r` rows leaves the
string of the rows from `r` on. -/
theorem frameStr_drop (hf : ∀ row ∈ f, row.length = c.COLS) {r : Nat} (hr : r < f.length) :
    (frameStr c f).drop (r * (c.COLS + 1)) = frameStr c (f.drop r) := by
  induction r generalizing f with
  | zero => rw [Nat.zero_mul, List.drop_zero, List.drop_zero]
  | succ r ih =>
    cases f with
    | nil => cases hr
    | cons row f =>
      obtain ⟨hrow, hf⟩ := List.forall_mem_cons.1 hf
      have hr : r < f.length := Nat.lt_of_succ_lt_succ hr
      have hskip : (rowStr c row ++ c.BYTE_SEP :: frameStr c f).drop (c.COLS + 1) = frameStr c f := by
        rw [List.drop_append, rowStr, List.length_map, hrow, Nat.add_sub_cancel_left,
          List.drop_eq_nil_of_le (by simp [hrow])]
        rfl
      rw [frameStr_cons_of_ne_nil (List.ne_nil_of_length_pos (by omega)), List.drop_succ_cons, ← ih hf hr,
        Nat.succ_mul, Nat.add_comm, ← List.drop_drop, hskip]

/-- A byte of a frame's string, counted from the start of row `r`. -/
theorem frameStr_getElem? (hf : ∀ row ∈ f, row.length = c.COLS) {r : Nat} (hr : r < f.length) (k : Nat) :
    (frameStr c f)[r * (c.COLS + 1) + k]? = (frameStr c (f[r] :: f.drop (r + 1)))[k]? := by
  rw [← List.getElem?_drop, frameStr_drop hf hr, List.drop_eq_getElem_cons hr]

/-- The byte of cell (row, col) (R124). -/
theorem frameStr_cell (hf : ∀ row ∈ f, row.length = c.COLS) {row col : Nat} (hrow : row < f.length)
    (hcol : col < c.COLS) :
    (frameStr c f)[row * (c.COLS + 1) + col]? = some (cellByte c (lit f row col)) := by
  have hcol : col < f[row].length := by rwa [hf _ (List.getElem_mem hrow)]
  have hbyte : (rowStr c f[row])[col]? = some (cellByte c (lit f row col)) := by
    simp [rowStr, lit, hrow, hcol]
  obtain ⟨rest, hrest⟩ := rowStr_prefix_frameStr (c := c) f[row] (f.drop (row + 1))
  rw [frameStr_getElem? hf hrow, ← hrest, List.getElem?_append_left (by rwa [rowStr, List.length_map]), hbyte]

/-- The byte after the cells of a row that is not the last (R125). -/
theorem frameStr_separator (hf : ∀ row ∈ f, row.length = c.COLS) {row : Nat} (hrow : row + 1 < f.length) :
    (frameStr c f)[row * (c.COLS + 1) + c.COLS]? = some c.BYTE_SEP := by
  have hrow' : row < f.length := by omega
  have hne : f.drop (row + 1) ≠ [] := fun h => by rw [List.drop_eq_nil_iff] at h; omega
  have hlen : (rowStr c f[row]).length = c.COLS := by rw [rowStr, List.length_map, hf _ (List.getElem_mem hrow')]
  rw [frameStr_getElem? hf hrow', frameStr_cons_of_ne_nil hne, List.getElem?_append_right hlen.le, hlen, Nat.sub_self]
  rfl

end

/-! ### The entries of Encode -/

section
variable {c : Config} {p : Pattern}

theorem encodePattern_length : (encodePattern c p).length = p.frames.length + 1 := by
  rw [encodePattern, List.length_append, List.length_map, List.length_singleton]

/-- The entry of a frame is its string (R124). -/
theorem encodePattern_frame {k : Nat} {f : Frame} (h : p.frames[k]? = some f) :
    (encodePattern c p)[k]? = some (frameStr c f) := by
  obtain ⟨hk, -⟩ := List.getElem?_eq_some_iff.1 h
  rw [encodePattern, List.getElem?_append_left (by rwa [List.length_map]), List.getElem?_map, h, Option.map_some]

/-- The entry after the frames is the terminal one (R126). -/
theorem encodePattern_terminal : (encodePattern c p)[p.frames.length]? = some [0x04#8] := by
  rw [encodePattern, List.getElem?_append_right (by rw [List.length_map]), List.length_map, Nat.sub_self]
  rfl

end

/-- Settles O42: the entry of a frame is its string, whose bytes are counted from the start of the row. -/
theorem encodeLaysFramesOutRowByRow : Obligations.EncodeLaysFramesOutRowByRow := by
  intro c p hw hp
  refine ⟨encodePattern_length, encodePattern_terminal, fun k f hk => ⟨frameStr c f, encodePattern_frame hk, ?_⟩⟩
  obtain ⟨-, hframes⟩ := Config.wfPattern_iff.1 hp
  obtain ⟨hrows, hcols⟩ := Config.wfFrame_iff.1 (hframes f (List.mem_of_getElem? hk))
  obtain ⟨-, hpos, -⟩ := Config.wf_geometry hw
  rw [← hrows] at hpos ⊢
  exact ⟨frameStr_length f hcols (List.ne_nil_of_length_pos hpos),
    fun row col hrow hcol => frameStr_cell hcols hrow hcol, fun row hrow => frameStr_separator hcols hrow⟩

/-! ### SELECT -/

section
variable {s : State} {i : Nat}

/-- An index outside the library is refused, whatever the pump does (R121). -/
theorem exec_select_outside (h : s.cfg.NUM_PATTERNS ≤ i) :
    exec (.select i) s = .next (s.raise .invalidPatternIndex) := by
  show execSelect i s = _
  rw [execSelect, List.getElem?_eq_none h]

/-- During a transmission a pattern of the library is refused (R122). -/
theorem exec_select_busy (h : i < s.cfg.NUM_PATTERNS) (hbusy : s.tx.tx_idle = false) :
    exec (.select i) s = .next (s.raise .transmissionInProgress) := by
  show execSelect i s = _
  rw [execSelect, List.getElem?_eq_getElem h, hbusy]
  rfl

/-- An idle pump is armed with the pattern's queue (R121). -/
theorem exec_select_idle {p : Pattern} (h : s.cfg.PATTERNS[i]? = some p) (hidle : s.tx.tx_idle = true) :
    exec (.select i) s = .next (s.arm (encodePattern s.cfg p)) := by
  show execSelect i s = _
  rw [execSelect, h, hidle]
  rfl

/-- The entries of an armed queue are the strings it was given, and none above them. -/
theorem arm_entry (s : State) (queue : List (List Byte)) (k : Nat) : (s.arm queue).tx.entry k = queue[k]? := by
  rw [Sender.entry]
  split
  · rfl
  · next h => exact (List.getElem?_eq_none (Nat.le_of_not_lt h)).symm

/-- The status SELECT leaves: the index is tested first (R123). -/
theorem exec_select_status {t : State} (h : exec (.select i) s = .next t) :
    t.selStatusOut =
      if s.cfg.NUM_PATTERNS ≤ i then 0b01#2 else if s.tx.tx_idle = false then 0b10#2 else 0b00#2 := by
  obtain ⟨hout, rfl⟩ | ⟨p, hp, hbusy, rfl⟩ | ⟨p, hp, hidle, rfl⟩ := execSelect_cases h
  · rw [if_pos hout]
    rfl
  · obtain ⟨hin, -⟩ := List.getElem?_eq_some_iff.1 hp
    rw [if_neg (Nat.not_le.2 hin), if_pos hbusy]
    rfl
  · obtain ⟨hin, -⟩ := List.getElem?_eq_some_iff.1 hp
    rw [if_neg (Nat.not_le.2 hin), if_neg (by rw [hidle]; decide)]
    rfl

end

/-- Settles O41: the two refusals write the status only, and the armed queue holds the entries of Encode. -/
theorem selectRefusesOrArms : Obligations.SelectRefusesOrArms := by
  intro s i
  refine ⟨exec_select_outside, exec_select_busy, fun p hp hidle => ?_, fun t => exec_select_status⟩
  refine ⟨s.arm (encodePattern s.cfg p), exec_select_idle hp hidle, encodePattern_length,
    fun k f hk => (arm_entry s _ k).trans (encodePattern_frame hk), (arm_entry s _ _).trans encodePattern_terminal,
    fun k hk => ?_, rfl, rfl, rfl, rfl, rfl⟩
  rw [arm_entry, List.getElem?_eq_none (by rw [encodePattern_length]; exact hk)]

end Sys2Proof.Machine
end

section
/-! PROOF. The family 41_transmit_pump.md: what a poll emits (R141, R142), the bytes a transmission emits (R146), and
when the next SELECT is accepted (R147). -/

namespace Sys2Proof.Machine

/-! ### One poll -/

section
variable {s : State} {str : List Byte}

/-- At the end of a string an armed pump emits the terminator (R143). -/
theorem execTxPoll_stringEnd (hidle : s.tx.tx_idle = false) (hentry : s.tx.entry s.tx.q_idx = some str)
    (hend : s.tx.byte_offset = str.length) : execTxPoll true s = .next (s.nextString.emit 0x00#8) := by
  simp [execTxPoll, hidle, hentry, hend]

/-- Inside a string an armed pump emits the string's next byte (R141). -/
theorem execTxPoll_nextByte (hidle : s.tx.tx_idle = false) (hentry : s.tx.entry s.tx.q_idx = some str) {b : Byte}
    (hb : str[s.tx.byte_offset]? = some b) : execTxPoll true s = .next (s.nextByte.emit b) := by
  obtain ⟨hlt, -⟩ := List.getElem?_eq_some_iff.1 hb
  simp [execTxPoll, hidle, hentry, hb, Nat.ne_of_lt hlt]

theorem nextString_last (h : s.tx.q_idx + 1 = s.tx.txq_count) :
    s.nextString = s.setTx { s.tx with byte_offset := 0, q_idx := 0, tx_idle := true } :=
  congrArg s.setTx (if_pos h)

theorem nextString_not_last (h : s.tx.q_idx + 1 ≠ s.tx.txq_count) :
    s.nextString = s.setTx { s.tx with byte_offset := 0, q_idx := s.tx.q_idx + 1 } :=
  congrArg s.setTx (if_neg h)

/-- A poll of an idle pump does nothing (R145). -/
theorem execTxPoll_idle (ready : Bool) (hidle : s.tx.tx_idle = true) : execTxPoll ready s = .next s := by
  simp [execTxPoll, hidle]

/-- Everything a ready poll of an armed pump can do: it emits. -/
theorem execTxPoll_armed_cases {t : State} (hidle : s.tx.tx_idle = false) (hx : execTxPoll true s = .next t) :
    ∃ str, s.tx.entry s.tx.q_idx = some str ∧
      ((s.tx.byte_offset = str.length ∧ t = s.nextString.emit 0x00#8) ∨
        ∃ b, s.tx.byte_offset ≠ str.length ∧ str[s.tx.byte_offset]? = some b ∧ t = s.nextByte.emit b) := by
  obtain ⟨hnot | hnot, -⟩ | ⟨-, -, hemit⟩ := execTxPoll_cases hx
  · cases hnot
  · rw [hidle] at hnot
    cases hnot
  · exact hemit

end

/-- Settles O43: the string at hand ends at `byte_offset` or has a byte there. -/
theorem txPollEmitsTheNextByte : Obligations.TxPollEmitsTheNextByte := by
  intro s
  refine ⟨rfl, execTxPoll_idle true, fun str hidle hentry => ⟨fun hend hlast => ?last, fun hend hnot => ?next,
    fun b hb => execTxPoll_nextByte hidle hentry hb⟩⟩
  case last =>
    show execTxPoll true s = _
    rw [execTxPoll_stringEnd hidle hentry hend, nextString_last hlast]
    rfl
  case next =>
    show execTxPoll true s = _
    rw [execTxPoll_stringEnd hidle hentry hend, nextString_not_last hnot]
    rfl

/-! ### The output port -/

section
variable {i : Instr} {s t : State}

theorem isReadyPoll_iff : isReadyPoll i = true ↔ i = .txPoll true := by
  unfold isReadyPoll
  split
  · exact iff_of_true rfl rfl
  · next h => exact iff_of_false Bool.false_ne_true h

/-- Only a ready poll writes the output port (R142). -/
theorem exec_keeps_tx_out (hpoll : i ≠ .txPoll true) (hx : exec i s = .next t) : t.tx_out = s.tx_out := by
  cases i with
  | one | zero | rowEnd | frameEnd | eot | ignore | rxByte | animTick | pwmTick | scanStep =>
    exact (exec_keeps_txSide rfl hx).2
  | reset target => cases target <;> cases hx <;> rfl
  | select k => obtain ⟨-, rfl⟩ | ⟨p, -, -, rfl⟩ | ⟨p, -, -, rfl⟩ := execSelect_cases hx <;> rfl
  | txPoll ready =>
    cases ready with
    | false => cases hx; rfl
    | true => exact absurd rfl hpoll

/-- A ready poll of an armed pump drives the port with the byte at hand: the terminator at the end of the string, else
the string's next byte (R141, R142). -/
theorem execTxPoll_tx_out (hidle : s.tx.tx_idle = false) (hx : execTxPoll true s = .next t) :
    ∃ str, s.tx.entry s.tx.q_idx = some str ∧ t.tx_out.isSome = true ∧
      t.tx_out = if s.tx.byte_offset = str.length then some 0x00#8 else str[s.tx.byte_offset]? := by
  obtain ⟨str, hentry, ⟨hend, rfl⟩ | ⟨b, hne, hb, rfl⟩⟩ := execTxPoll_armed_cases hidle hx
  · exact ⟨str, hentry, rfl, by rw [if_pos hend]; rfl⟩
  · exact ⟨str, hentry, rfl, by rw [if_neg hne, hb]; rfl⟩

end

/-- What a step leaves on the port: the byte of a ready poll of an armed pump, or nothing. -/
theorem step_tx_out_cases {s t : State} (h : step s = .next t) :
    (((fetch s.cfg s.inputs).1 = some (.txPoll true) ∧ s.tx.tx_idle = false) ∧
        ∃ str, s.tx.entry s.tx.q_idx = some str ∧ t.tx_out.isSome = true ∧
          t.tx_out = if s.tx.byte_offset = str.length then some 0x00#8 else str[s.tx.byte_offset]?) ∨
      (¬((fetch s.cfg s.inputs).1 = some (.txPoll true) ∧ s.tx.tx_idle = false) ∧ t.tx_out = none) := by
  obtain ⟨-, ⟨rest, hf, rfl⟩ | ⟨i, rest, hf, hx⟩⟩ := step_cases h
  · exact .inr ⟨by simp [hf], rfl⟩
  · by_cases hpoll : i = .txPoll true
    · subst hpoll
      cases hidle : s.tx.tx_idle with
      | true =>
        obtain rfl := Host.Outcome.next.inj ((execTxPoll_idle (s := s.beginEvent rest) true hidle).symm.trans hx)
        exact .inr ⟨by simp, rfl⟩
      | false => exact .inl ⟨⟨by rw [hf], rfl⟩, execTxPoll_tx_out (s := s.beginEvent rest) hidle hx⟩
    · exact .inr ⟨by simp [hf, hpoll], exec_keeps_tx_out hpoll hx⟩

/-- While `tx_valid` is 1, `tx_data` is the byte on the port. -/
theorem some_txData {t : State} (h : t.txValid = true) : some t.txData = t.tx_out := by
  obtain ⟨b, hb⟩ := Option.isSome_iff_exists.1 h
  rw [State.txData, hb]
  rfl

/-- Settles O44: a step clears the port first, and only a ready poll of an armed pump writes it. -/
theorem txValidOnlyInAnEmittingPoll : Obligations.TxValidOnlyInAnEmittingPoll := by
  intro s t hstep
  obtain ⟨hpoll, str, hentry, hvalid, hout⟩ | ⟨hnot, hout⟩ := step_tx_out_cases hstep
  · refine ⟨iff_of_true hvalid hpoll, fun _ str' hentry' => ?_⟩
    obtain rfl := Option.some.inj (hentry.symm.trans hentry')
    exact (some_txData hvalid).trans hout
  · have hvalid : t.txValid ≠ true := by simp [State.txValid, hout]
    exact ⟨iff_of_false hvalid hnot, fun h => absurd h hvalid⟩

/-! ### The bytes still to come -/

/-- The bytes on the wire of the strings of a queue: each string with its terminator (R143). -/
def wireBytes (queue : List (List Byte)) : List Byte := queue.flatMap (· ++ [0x00#8])

/-- The bytes of the transmission that are still to be emitted: none once the pump is idle. -/
def Sender.pending (x : Sender) : List Byte :=
  if x.tx_idle then [] else (wireBytes (x.txq.drop x.q_idx)).drop x.byte_offset

/-- The Wire Message is the queue of Encode, each string terminated (R92, R103, R124). -/
theorem wireBytes_encodePattern (c : Config) (p : Pattern) : wireBytes (encodePattern c p) = msg c p := by
  simp only [wireBytes, encodePattern, List.flatMap_append, List.flatMap_map]
  rfl

theorem pending_arm (s : State) (queue : List (List Byte)) : (s.arm queue).tx.pending = wireBytes queue := rfl

section
variable {c : Config} {x : Sender}

theorem pending_of_idle (h : x.tx_idle = true) : x.pending = [] := if_pos h

theorem getElem?_txq_of_entry {k : Nat} {str : List Byte} (h : x.entry k = some str) : x.txq[k]? = some str := by
  unfold Sender.entry at h
  split at h
  · exact h
  · cases h

/-- While armed: the rest of the string at hand, its terminator, and the strings after it. -/
theorem pending_of_armed (hidle : x.tx_idle = false) {str : List Byte} (hentry : x.entry x.q_idx = some str)
    (hoff : x.byte_offset ≤ str.length) :
    x.pending = str.drop x.byte_offset ++ 0x00#8 :: wireBytes (x.txq.drop (x.q_idx + 1)) := by
  obtain ⟨hlt, rfl⟩ := List.getElem?_eq_some_iff.1 (getElem?_txq_of_entry hentry)
  rw [Sender.pending, hidle, if_neg Bool.false_ne_true, List.drop_eq_getElem_cons hlt, wireBytes, List.flatMap_cons,
    List.append_assoc, List.drop_append_of_le_length hoff]
  rfl

/-- The pump is idle exactly when no byte is to come. -/
theorem pending_eq_nil_iff (h : SenderInv c x) : x.pending = [] ↔ x.tx_idle = true := by
  obtain ⟨-, -, -, -, -, harmed⟩ := h
  refine ⟨fun hnil => ?_, pending_of_idle⟩
  by_contra hidle
  rw [Bool.not_eq_true] at hidle
  obtain ⟨-, e, he, hoff⟩ := harmed hidle
  rw [pending_of_armed hidle he hoff] at hnil
  exact List.append_ne_nil_of_right_ne_nil _ (List.cons_ne_nil _ _) hnil

end

section
variable {i : Instr} {s t : State}

/-- After the end of a string the strings behind it are still to come: none after the last entry. -/
theorem pending_nextString (hlen : s.tx.txq.length = s.tx.txq_count) (hidle : s.tx.tx_idle = false) :
    s.nextString.tx.pending = wireBytes (s.tx.txq.drop (s.tx.q_idx + 1)) := by
  rw [State.nextString_tx]
  split
  · next hlast =>
    rw [pending_of_idle rfl, List.drop_eq_nil_of_le (hlen.trans hlast.symm).le]
    rfl
  · simp [Sender.pending, hidle]

/-- A ready poll of an armed pump emits the first byte still to come. -/
theorem execTxPoll_emits_pending (h : SenderInv s.cfg s.tx) (hidle : s.tx.tx_idle = false)
    (hx : execTxPoll true s = .next t) : ∃ b, t.tx_out = some b ∧ s.tx.pending = b :: t.tx.pending := by
  obtain ⟨hlen, -⟩ := h
  obtain ⟨str, hentry, ⟨hend, rfl⟩ | ⟨b, -, hb, rfl⟩⟩ := execTxPoll_armed_cases hidle hx
  · refine ⟨0x00#8, rfl, ?_⟩
    rw [State.emit_tx, pending_nextString hlen hidle, pending_of_armed hidle hentry hend.le, hend, List.drop_length]
    rfl
  · obtain ⟨hlt, rfl⟩ := List.getElem?_eq_some_iff.1 hb
    refine ⟨_, rfl, ?_⟩
    rw [State.emit_tx, pending_of_armed (x := s.nextByte.tx) hidle hentry hlt, pending_of_armed hidle hentry hlt.le,
      List.drop_eq_getElem_cons hlt]
    rfl

/-- A poll with the port cleared before it emits the first byte still to come, if it is ready and there is one, and
leaves the rest. -/
theorem execTxPoll_pending {ready : Bool} (h : SenderInv s.cfg s.tx) (hout : s.tx_out = none)
    (hx : execTxPoll ready s = .next t) :
    t.tx_out.toList = s.tx.pending.take ready.toNat ∧ t.tx.pending = s.tx.pending.drop ready.toNat := by
  cases ready with
  | false =>
    cases hx
    exact ⟨by rw [hout]; rfl, rfl⟩
  | true =>
    cases hidle : s.tx.tx_idle with
    | true =>
      obtain rfl := Host.Outcome.next.inj ((execTxPoll_idle true hidle).symm.trans hx)
      rw [hout, pending_of_idle hidle]
      exact ⟨rfl, rfl⟩
    | false =>
      obtain ⟨b, hb, hpending⟩ := execTxPoll_emits_pending h hidle hx
      rw [hb, hpending]
      exact ⟨rfl, rfl⟩

/-- No other event but a RESET of the sender takes from the bytes to come; only to an idle pump can it add some. -/
theorem exec_keeps_pending (hrst : i ≠ .reset .sender) (hpoll : i ≠ .txPoll true) (hx : exec i s = .next t) :
    s.tx.tx_idle = true ∨ t.tx.pending = s.tx.pending := by
  cases i with
  | one | zero | rowEnd | frameEnd | eot | ignore | rxByte | animTick | pwmTick | scanStep =>
    exact .inr (by rw [(exec_keeps_txSide rfl hx).1])
  | reset target =>
    cases target with
    | receiver => cases hx; exact .inr rfl
    | sender => exact absurd rfl hrst
  | select k =>
    obtain ⟨-, rfl⟩ | ⟨p, -, -, rfl⟩ | ⟨p, -, hidle, rfl⟩ := execSelect_cases hx
    · exact .inr rfl
    · exact .inr rfl
    · exact .inl hidle
  | txPoll ready =>
    cases ready with
    | false => cases hx; exact .inr rfl
    | true => exact absurd rfl hpoll

/-- After an event of a run the sender's invariant holds under the same well-formed parameters. -/
theorem event_keeps_senderInv {rest : List Ports} (hw : s.cfg.wf = true) (h : SenderInv s.cfg s.tx)
    (hx : exec i (s.beginEvent rest) = .next t) : t.cfg.wf = true ∧ SenderInv t.cfg t.tx := by
  obtain ⟨hcfg, -⟩ := exec_environment hx
  rw [hcfg]
  exact ⟨hw, exec_keeps_senderInv (s := s.beginEvent rest) hw h hx⟩

/-- The queue of an accepted SELECT is within its bounds, whatever the idle pump held before. -/
theorem senderInv_arm (hw : s.cfg.wf = true) {k : Nat} {p : Pattern} (hp : s.cfg.PATTERNS[k]? = some p) :
    SenderInv s.cfg (s.arm (encodePattern s.cfg p)).tx :=
  execSelect_keeps_senderInv (s := s.setTx Sender.reset) hw (senderInv_reset s.cfg) (exec_select_idle hp rfl)

end

/-! ### Runs with their emitted bytes -/

section
variable {i : Instr} {is : List Instr} {s t u : State} {bs : List Byte}

theorem emitRun_cons (hx : exec i (s.beginEvent s.inputs) = .next t) (hrun : emitRun is t = some (bs, u)) :
    emitRun (i :: is) s = some (t.tx_out.toList ++ bs, u) := by
  simp only [emitRun, hx, hrun, Option.map_some]

theorem emitRun_cons_some (h : emitRun (i :: is) s = some (bs, u)) :
    ∃ t bs', exec i (s.beginEvent s.inputs) = .next t ∧ emitRun is t = some (bs', u) ∧
      bs = t.tx_out.toList ++ bs' := by
  simp only [emitRun] at h
  split at h
  · next t hx =>
    obtain ⟨⟨bs', u'⟩, hrun, heq⟩ := Option.map_eq_some_iff.1 h
    obtain ⟨rfl, rfl⟩ := Prod.mk.inj heq
    exact ⟨t, bs', hx, hrun, rfl⟩
  · cases h
  · cases h

/-- An event of a run keeps a promise `m` of bytes: a ready poll emits its first byte and leaves the rest, every other
event leaves all of it. The bytes to come begin with `m` but need not end with it: once the promise is kept, a SELECT may
be accepted and add bytes. -/
theorem event_keeps_promise {m : List Byte} (h : SenderInv s.cfg s.tx) (hm : m <+: s.tx.pending)
    (hrst : i ≠ .reset .sender) (hroom : (isReadyPoll i).toNat ≤ m.length)
    (hx : exec i (s.beginEvent s.inputs) = .next t) :
    t.tx_out.toList = m.take (isReadyPoll i).toNat ∧ m.drop (isReadyPoll i).toNat <+: t.tx.pending := by
  by_cases hpoll : i = .txPoll true
  · subst hpoll
    obtain ⟨hout, hrest⟩ := execTxPoll_pending (s := s.beginEvent s.inputs) h rfl hx
    obtain ⟨rest, hrest'⟩ := hm
    rw [State.beginEvent_tx, ← hrest'] at hout hrest
    exact ⟨hout.trans (List.take_append_of_le_length hroom),
      rest, (hrest.trans (List.drop_append_of_le_length hroom)).symm⟩
  · have hnot : isReadyPoll i = false := Bool.eq_false_iff.2 (mt isReadyPoll_iff.1 hpoll)
    rw [hnot, exec_keeps_tx_out hpoll hx]
    refine ⟨rfl, ?_⟩
    obtain hidle | hkept := exec_keeps_pending hrst hpoll hx
    · rw [List.prefix_nil.1 (pending_of_idle hidle ▸ hm : m <+: [])]
      exact List.nil_prefix
    · rwa [hkept]

/-- As long as no more ready polls occur than bytes are promised, a run emits the promised bytes one by one, and the
pump is busy while some of them are to come. -/
theorem emitRun_emits_promise {m : List Byte} (hw : s.cfg.wf = true) (h : SenderInv s.cfg s.tx)
    (hm : m <+: s.tx.pending) (hrst : ∀ e ∈ is, e ≠ .reset .sender) (hcount : is.countP isReadyPoll ≤ m.length)
    (hrun : emitRun is s = some (bs, u)) :
    bs = m.take (is.countP isReadyPoll) ∧ (is.countP isReadyPoll < m.length → u.tx.tx_idle = false) := by
  induction is generalizing s m bs with
  | nil =>
    cases hrun
    refine ⟨rfl, fun hlt => ?_⟩
    by_contra hidle
    rw [pending_of_idle (Bool.eq_true_of_not_eq_false hidle), List.prefix_nil] at hm
    exact Nat.not_lt_zero _ (hm ▸ hlt)
  | cons i is ih =>
    obtain ⟨t, bs, hx, hrest, rfl⟩ := emitRun_cons_some hrun
    obtain ⟨hi, hrst⟩ := List.forall_mem_cons.1 hrst
    obtain ⟨hwt, ht⟩ := event_keeps_senderInv hw h hx
    have hsplit : (i :: is).countP isReadyPoll = (isReadyPoll i).toNat + is.countP isReadyPoll := by
      rw [List.countP_cons, Nat.add_comm, Bool.toNat, Bool.cond_eq_ite]
    rw [hsplit] at hcount ⊢
    obtain ⟨hout, hm⟩ := event_keeps_promise h hm hi (by omega) hx
    obtain ⟨rfl, hbusy⟩ := ih hwt ht hm hrst (by rw [List.length_drop]; omega) hrest
    rw [List.length_drop] at hbusy
    exact ⟨by rw [hout, List.take_add], fun hlt => hbusy (by omega)⟩

/-- Polls alone always complete; they emit the bytes to come, one for each ready poll, and leave the rest. -/
theorem emitRun_polls (hw : s.cfg.wf = true) (h : SenderInv s.cfg s.tx) (polls : List Bool) :
    ∃ u, emitRun (polls.map .txPoll) s = some (s.tx.pending.take (polls.count true), u) ∧
      u.tx.pending = s.tx.pending.drop (polls.count true) ∧ u.cfg = s.cfg ∧ SenderInv u.cfg u.tx := by
  induction polls generalizing s with
  | nil => exact ⟨s, rfl, rfl, rfl, h⟩
  | cons ready polls ih =>
    obtain ⟨t, hx⟩ : ∃ t, exec (.txPoll ready) (s.beginEvent s.inputs) = .next t :=
      execTxPoll_next (s := s.beginEvent s.inputs) h ready
    obtain ⟨hwt, ht⟩ := event_keeps_senderInv hw h hx
    obtain ⟨hcfg, -⟩ := exec_environment hx
    obtain ⟨hout, hpending⟩ := execTxPoll_pending (s := s.beginEvent s.inputs) h rfl hx
    obtain ⟨u, hrun, hrest, hucfg, hu⟩ := ih hwt ht
    have hsplit : (ready :: polls).count true = ready.toNat + polls.count true := by
      cases ready
      · rw [List.count_cons_of_ne Bool.false_ne_true, Bool.toNat_false, Nat.zero_add]
      · rw [List.count_cons_self, Bool.toNat_true, Nat.add_comm]
    rw [State.beginEvent_tx] at hout hpending
    refine ⟨u, ?_, ?_, hucfg.trans hcfg, hu⟩
    · rw [List.map_cons, emitRun_cons hx hrun, hout, hpending, hsplit, List.take_add]
    · rw [hrest, hpending, hsplit, List.drop_drop]

end

/-! ### A transmission -/

/-- The length of the Wire Message of a pattern of well-shaped frames (R92). -/
theorem msg_length {c : Config} {p : Pattern} (hw : c.wf = true) (hp : c.wfPattern p = true) :
    (msg c p).length = p.frames.length * (c.ROWS * c.COLS + c.ROWS) + 2 := by
  obtain ⟨-, hframes⟩ := Config.wfPattern_iff.1 hp
  obtain ⟨-, hrows, -⟩ := Config.wf_geometry hw
  have hframe : ∀ f ∈ p.frames, (frameMsg c f).length = c.ROWS * c.COLS + c.ROWS := by
    intro f hf
    obtain ⟨hshape, hrow⟩ := Config.wfFrame_iff.1 (hframes f hf)
    have hne : f ≠ [] := List.ne_nil_of_length_pos (by omega)
    rw [frameMsg, List.length_append, List.length_singleton, frameStr_length f hrow hne, hshape]
    omega
  rw [msg, List.length_append, List.length_flatMap, List.map_congr_left hframe, List.map_const', List.sum_replicate,
    smul_eq_mul]
  rfl

section
variable {s t : State} {i : Nat} {p : Pattern}

/-- After an accepted SELECT the whole Wire Message is to come. -/
theorem accepted_select (hw : s.cfg.wf = true) (hp : s.cfg.PATTERNS[i]? = some p) (hidle : s.tx.tx_idle = true)
    (hx : exec (.select i) s = .next t) :
    t.cfg = s.cfg ∧ t.tx.pending = msg s.cfg p ∧ SenderInv t.cfg t.tx := by
  obtain rfl := Host.Outcome.next.inj ((exec_select_idle hp hidle).symm.trans hx)
  exact ⟨rfl, (pending_arm s _).trans (wireBytes_encodePattern s.cfg p), senderInv_arm hw hp⟩

/-- From an accepted SELECT, polls alone emit the Wire Message, and the pump is idle exactly when all of it is out. -/
theorem accepted_select_polls (hw : s.cfg.wf = true) (hp : s.cfg.PATTERNS[i]? = some p) (hidle : s.tx.tx_idle = true)
    (hx : exec (.select i) s = .next t) (polls : List Bool) :
    ∃ u, emitRun (polls.map .txPoll) t = some ((msg s.cfg p).take (polls.count true), u) ∧ u.cfg = s.cfg ∧
      (u.tx.tx_idle = true ↔ (msg s.cfg p).length ≤ polls.count true) := by
  obtain ⟨hcfg, hmsg, hinv⟩ := accepted_select hw hp hidle hx
  obtain ⟨u, hrun, hrest, hucfg, hu⟩ := emitRun_polls (by rwa [hcfg]) hinv polls
  rw [hmsg] at hrun hrest
  exact ⟨u, hrun, hucfg.trans hcfg, by rw [← pending_eq_nil_iff hu, hrest, List.drop_eq_nil_iff]⟩

end

/-- Settles O45: after the SELECT the whole message is to come, and each event of the run leaves what it does not
emit. -/
theorem transmissionEmitsTheWireMessage : Obligations.TransmissionEmitsTheWireMessage := by
  intro s t i p hw hp hidle hx
  obtain ⟨hcfg, hmsg, hinv⟩ := accepted_select hw hp hidle hx
  obtain ⟨-, -, hlib⟩ := Config.wf_library hw
  refine ⟨msg_length hw (hlib p (List.mem_of_getElem? hp)), fun is bs u hrst hcount hrun => ?run,
    fun polls => ?polls⟩
  case run => exact emitRun_emits_promise (by rwa [hcfg]) hinv (hmsg ▸ List.prefix_rfl) hrst hcount hrun
  case polls =>
    obtain ⟨u, hrun, -, hdone⟩ := accepted_select_polls hw hp hidle hx polls
    exact ⟨u, hrun, hdone⟩

/-- Settles O46: SELECT asks whether the pump is idle, and it is exactly when all of the message is out. -/
theorem reselectAcceptedOnlyAfterTheLastTerminator : Obligations.ReselectAcceptedOnlyAfterTheLastTerminator := by
  intro s t u i j p polls bs hw hp hidle hx hrun hj
  obtain ⟨u', hrun', hcfg, hdone⟩ := accepted_select_polls hw hp hidle hx polls
  obtain ⟨-, rfl⟩ := Prod.mk.inj (Option.some.inj (hrun'.symm.trans hrun))
  rw [← hcfg] at hj
  cases hu : u'.tx.tx_idle with
  | false =>
    refine ⟨_, exec_select_busy hj hu, fun _ => rfl, fun hout => ?_⟩
    rw [hdone.2 hout] at hu
    cases hu
  | true =>
    exact ⟨_, exec_select_idle (List.getElem?_eq_getElem hj) hu, fun hlt => absurd (hdone.1 hu) (Nat.not_le.2 hlt),
      fun _ => ⟨rfl, rfl⟩⟩

end Sys2Proof.Machine
end

section
/-! PROOF. The family 42_protocol_decoder.md: the actions RX_BYTE selects between (R160 to R167), what stands between
messages (R171, R172), what decoding depends on (R168, R174), and the decoding of a whole message (R169, R170), sent by
the pump or not. -/

namespace Sys2Proof.Machine

/-! ### RX_BYTE -/

section
variable {s t : State}

/-- RX_BYTE of the byte that stands for an instruction does what the instruction does (R160). -/
theorem exec_rxByte_of_decodeByte {b : Byte} {i : Instr} (h : decodeByte s.cfg b = i) :
    exec (.rxByte b) s = exec i s := by
  rw [← h]
  exact execRxByte_eq b s

theorem exec_rxByte_one (hw : s.cfg.wf = true) : exec (.rxByte s.cfg.BYTE_ONE) s = exec .one s :=
  exec_rxByte_of_decodeByte ((decodeByte_eq_iff hw rfl rfl).2 rfl)

theorem exec_rxByte_zero (hw : s.cfg.wf = true) : exec (.rxByte s.cfg.BYTE_ZERO) s = exec .zero s :=
  exec_rxByte_of_decodeByte ((decodeByte_eq_iff hw rfl rfl).2 rfl)

theorem exec_rxByte_rowEnd (hw : s.cfg.wf = true) : exec (.rxByte s.cfg.BYTE_SEP) s = exec .rowEnd s :=
  exec_rxByte_of_decodeByte ((decodeByte_eq_iff hw rfl rfl).2 rfl)

theorem exec_rxByte_frameEnd (hw : s.cfg.wf = true) : exec (.rxByte 0x00#8) s = exec .frameEnd s :=
  exec_rxByte_of_decodeByte ((decodeByte_eq_iff hw rfl rfl).2 rfl)

theorem exec_rxByte_eot (hw : s.cfg.wf = true) : exec (.rxByte 0x04#8) s = exec .eot s :=
  exec_rxByte_of_decodeByte ((decodeByte_eq_iff hw rfl rfl).2 rfl)

/-- A byte without an action is ignored, under any configuration (R167). -/
theorem exec_rxByte_ignore {b : Byte} (hb : b ∉ activeBytes s.cfg) : exec (.rxByte b) s = exec (.ignore b) s :=
  exec_rxByte_of_decodeByte (by rw [decodeByte, Config.classify_ignore hb])

end

/-- Settles O11: the action is that of the instruction the byte stands for, and every action completes. -/
theorem rxByteSelectsItsAction : Obligations.RxByteSelectsItsAction :=
  fun _ hw =>
    ⟨exec_rxByte_one hw, exec_rxByte_zero hw, exec_rxByte_rowEnd hw, exec_rxByte_frameEnd hw, exec_rxByte_eot hw,
      fun _ => exec_rxByte_ignore, fun _ => exec_byteClass_next rfl hw⟩

/-- Settles O17: a byte without an action is IGNORE, whose meaning is empty. -/
theorem ignoredBytesChangeNothing : Obligations.IgnoredBytesChangeNothing :=
  fun _ _ hb => ⟨rfl, exec_rxByte_ignore hb⟩

/-! ### The six actions -/

section
variable {s : State}

/-- A lit cell of the window is recorded while its slot has room (R162). -/
theorem exec_one_records (hw : s.cfg.wf = true) (hcell : inWindow s.cfg s.rx.row s.rx.col = true)
    (hroom : s.rx.ts < s.cfg.MAX_TIMESTEPS ∧ s.rx.pidx < s.cfg.CAP) :
    exec .one s = .next (s.recordPoint (pinsAt s.cfg s.rx.row s.rx.col)).nextCol :=
  (execOne_eq hw).trans (by rw [if_pos hcell, if_pos hroom])

/-- A lit cell of the window without room for it overflows (R162). -/
theorem exec_one_overflows (hw : s.cfg.wf = true) (hcell : inWindow s.cfg s.rx.row s.rx.col = true)
    (hfull : ¬(s.rx.ts < s.cfg.MAX_TIMESTEPS ∧ s.rx.pidx < s.cfg.CAP)) :
    exec .one s = .next (s.raise .bufferOverflow).nextCol :=
  (execOne_eq hw).trans (by rw [if_pos hcell, if_neg hfull])

/-- A lit cell outside the window is dropped (R162). -/
theorem exec_one_drops (hw : s.cfg.wf = true) (hcell : ¬inWindow s.cfg s.rx.row s.rx.col = true) :
    exec .one s = .next s.nextCol :=
  (execOne_eq hw).trans (by rw [if_neg hcell])

/-- The message's final terminator (R165). -/
theorem exec_frameEnd_final (he : s.rx.frameEmpty = true) (heot : s.rx.after_eot = true) :
    exec .frameEnd s = .next s.clearAfterEot := by
  simp [exec, execFrameEnd, he, heot]

/-- A terminator of nothing (R165, R233). -/
theorem exec_frameEnd_malformed (he : s.rx.frameEmpty = true) (heot : s.rx.after_eot = false) :
    exec .frameEnd s = .next (s.raise .malformedFrame) := by
  simp [exec, execFrameEnd, he, heot]

/-- A terminated frame with a slot to store its count in (R165). -/
theorem exec_frameEnd_stores (he : s.rx.frameEmpty = false) (hts : s.rx.ts < s.cfg.MAX_TIMESTEPS) :
    exec .frameEnd s = .next s.storeCount.startFrame := by
  simp [exec, execFrameEnd, he, hts]

/-- A terminated frame without a slot is dropped (R165). -/
theorem exec_frameEnd_drops (he : s.rx.frameEmpty = false) (hts : ¬s.rx.ts < s.cfg.MAX_TIMESTEPS) :
    exec .frameEnd s = .next (s.raise .bufferOverflow).startFrame := by
  simp [exec, execFrameEnd, he, hts]

/-- EOT after a complete frame (R166). -/
theorem exec_eot_of_empty (he : s.rx.frameEmpty = true) : exec .eot s = .next s.publish :=
  (execEot_eq s).trans (by rw [if_pos he])

/-- EOT with an unterminated frame (R166, R233). -/
theorem exec_eot_of_not_empty (he : ¬s.rx.frameEmpty = true) :
    exec .eot s = .next (s.raise .malformedFrame).publish :=
  (execEot_eq s).trans (by rw [if_neg he])

end

/-- Settles O12, in the three cases of R162. -/
theorem oneRecordsOverflowsOrDrops : Obligations.OneRecordsOverflowsOrDrops := by
  intro s hw
  rw [cellInWindow_iff]
  by_cases hcell : inWindow s.cfg s.rx.row s.rx.col = true
  · by_cases hroom : s.rx.ts < s.cfg.MAX_TIMESTEPS ∧ s.rx.pidx < s.cfg.CAP
    · refine ⟨_, exec_one_records hw hcell hroom, fun _ _ => ⟨?_, fun b k i hother => ?_, rfl, rfl⟩,
        fun _ hfull => absurd hroom hfull, fun hout => absurd hcell hout, fun _ _ => rfl, rfl⟩
      · exact (Memory.readPoint_writePoint ..).trans (if_pos ⟨rfl, rfl, rfl⟩)
      · exact (Memory.readPoint_writePoint ..).trans (if_neg hother)
    · exact ⟨_, exec_one_overflows hw hcell hroom, fun _ h => absurd h hroom, fun _ _ => ⟨rfl, rfl, rfl⟩,
        fun hout => absurd hcell hout, fun _ _ => rfl, rfl⟩
  · exact ⟨_, exec_one_drops hw hcell, fun h => absurd h hcell, fun h => absurd h hcell, fun _ => ⟨rfl, rfl, rfl⟩,
      fun _ _ => rfl, rfl⟩

/-- Settles O13: R163 is what the meaning of ZERO says. -/
theorem zeroAdvancesCol : Obligations.ZeroAdvancesCol := fun _ => rfl

/-- Settles O14: R164 is what the meaning of ROWEND says. -/
theorem rowEndStartsNextRow : Obligations.RowEndStartsNextRow := fun _ => rfl

/-- Settles O15, in the four cases of R165. -/
theorem frameEndStoresDropsOrIgnores : Obligations.FrameEndStoresDropsOrIgnores := by
  intro s
  rw [← frameEmpty_iff]
  cases he : s.rx.frameEmpty with
  | true =>
    cases heot : s.rx.after_eot with
    | true =>
      exact ⟨_, exec_frameEnd_final he heot, fun _ _ => rfl, fun _ => nofun, fun h => absurd rfl h,
        fun h => absurd rfl h⟩
    | false =>
      exact ⟨_, exec_frameEnd_malformed he heot, fun _ => nofun, fun _ _ => rfl, fun h => absurd rfl h,
        fun h => absurd rfl h⟩
  | false =>
    by_cases hts : s.rx.ts < s.cfg.MAX_TIMESTEPS
    · refine ⟨_, exec_frameEnd_stores he hts, nofun, nofun, fun _ _ => ⟨?_, fun b k hother => ?_, fun _ _ _ => rfl, rfl⟩,
        fun _ hfull => absurd hts hfull⟩
      · exact (Memory.readCount_writeCount ..).trans (if_pos ⟨rfl, rfl⟩)
      · exact (Memory.readCount_writeCount ..).trans (if_neg hother)
    · exact ⟨_, exec_frameEnd_drops he hts, nofun, nofun, fun _ h => absurd h hts, fun _ _ => rfl⟩

/-- Publishing makes the banks change roles. -/
theorem publish_exchanges_banks (s : State) :
    (∀ k, s.publish.rx.liveCount k = s.rx.stagedCount k) ∧
      (∀ k i, s.publish.rx.livePoint k i = s.rx.stagedPoint k i) ∧
      (∀ k, s.publish.rx.stagedCount k = s.rx.liveCount k) ∧
      ∀ k i, s.publish.rx.stagedPoint k i = s.rx.livePoint k i := by
  have hback : s.publish.rx.stage = s.rx.live := Bool.not_not _
  exact ⟨fun _ => rfl, fun _ _ => rfl, fun k => congrArg (s.rx.fb.readCount · k) hback,
    fun k i => congrArg (s.rx.fb.readPoint · k i) hback⟩

/-- Settles O16: the error class EOT may raise moves a counter only, and the publish goes ahead. -/
theorem eotPublishesTheStagedPattern : Obligations.EotPublishesTheStagedPattern := by
  intro s
  rw [← frameEmpty_iff]
  by_cases he : s.rx.frameEmpty = true
  · obtain ⟨hcount, hpoint, hcount', hpoint'⟩ := publish_exchanges_banks s
    exact ⟨_, exec_eot_of_empty he, hcount, hpoint, hcount', hpoint', fun _ => rfl,
      fun h => absurd he h, rfl⟩
  · obtain ⟨hcount, hpoint, hcount', hpoint'⟩ := publish_exchanges_banks (s.raise .malformedFrame)
    exact ⟨_, exec_eot_of_not_empty he, hcount, hpoint, hcount', hpoint', fun h => absurd h he, fun _ => rfl, rfl⟩

/-! ### Between frames and between messages -/

section
variable {s t : State}

/-- However a terminator is taken, an empty frame with `after_eot` clear is left. -/
theorem exec_frameEnd_leaves_empty (hx : exec .frameEnd s = .next t) :
    t.rx.frameEmpty = true ∧ t.rx.after_eot = false := by
  obtain ⟨he, -, rfl⟩ | ⟨he, heot, rfl⟩ | ⟨-, -, rfl⟩ | ⟨-, -, rfl⟩ := execFrameEnd_cases hx
  · exact ⟨he, rfl⟩
  · exact ⟨he, heot⟩
  · exact ⟨rfl, rfl⟩
  · exact ⟨rfl, rfl⟩

end

/-- Settles O23: the first terminator leaves the state in which the second is malformed. -/
theorem secondTerminatorWritesNoCount : Obligations.SecondTerminatorWritesNoCount := by
  intro s t hx
  obtain ⟨he, heot⟩ := exec_frameEnd_leaves_empty hx
  exact ⟨_, exec_frameEnd_malformed he heot, fun _ _ => rfl, rfl, rfl⟩

/-- The cursor stands at timestep 0, row 0, column 0, with nothing recorded. -/
def Cursor.AtOrigin (k : Cursor) : Prop := k.row = 0 ∧ k.col = 0 ∧ k.pidx = 0 ∧ k.ts = 0

section
variable {c : Config} {k : Cursor}

/-- At the origin a terminator ends no frame and an ignored byte does nothing. -/
theorem Cursor.AtOrigin.after {cl : ByteClass} (h : k.AtOrigin) (hcl : cl = .frameEnd ∨ cl = .ignore) :
    (k.after c cl).AtOrigin := by
  obtain ⟨hrow, hcol, hpidx, hts⟩ := h
  obtain rfl | rfl := hcl
  · rw [Cursor.after, if_pos ⟨hrow, hcol⟩]
    exact ⟨hrow, hcol, hpidx, hts⟩
  · exact ⟨hrow, hcol, hpidx, hts⟩

theorem Cursor.AtOrigin.afterBytes (hw : c.wf = true) {bs : List Byte}
    (hbs : ∀ b ∈ bs, b = 0x00#8 ∨ b ∉ activeBytes c) (h : k.AtOrigin) : (k.afterBytes c bs).AtOrigin := by
  induction bs generalizing k with
  | nil => exact h
  | cons b bs ih =>
    obtain ⟨hb, hbs⟩ := List.forall_mem_cons.1 hbs
    obtain ⟨-, -, -, hframeEnd, -⟩ := Config.classify_bytes hw
    refine ih hbs (h.after (hb.imp (fun hb => ?_) Config.classify_ignore))
    rw [hb]
    exact hframeEnd

/-- R172: EOT and the terminators and ignored bytes after it leave the cursor at the origin, wherever it stood. -/
theorem Cursor.atOrigin_afterBytes_eot (hw : c.wf = true) {bs : List Byte}
    (hbs : ∀ b ∈ bs, b = 0x00#8 ∨ b ∉ activeBytes c) : (k.afterBytes c (0x04#8 :: bs)).AtOrigin := by
  obtain ⟨-, -, -, -, heot⟩ := Config.classify_bytes hw
  rw [Cursor.afterBytes_cons, heot]
  exact Cursor.AtOrigin.afterBytes hw hbs ⟨rfl, rfl, rfl, rfl⟩

end

/-- No event of a run writes the parameters (R10, R21). -/
theorem runEvents_cfg {is : List Instr} {s t : State} (h : runEvents is s = .next t) : t.cfg = s.cfg := by
  induction is generalizing s with
  | nil => cases h; rfl
  | cons i is ih =>
    obtain ⟨u, hu, hrest⟩ := runEvents_cons_next h
    obtain ⟨hcfg, -⟩ := exec_environment hu
    exact (ih hrest).trans hcfg

/-- Settles O24: the cursor after the bytes is at the origin, where a slot has room, and ONE and ZERO do there what R162
and R163 say. -/
theorem nextCellAfterEotIsAtTheOrigin : Obligations.NextCellAfterEotIsAtTheOrigin := by
  intro s bs hw hbs
  obtain ⟨t, ht, hcursor⟩ := runEvents_rxBytes_cursor (0x04#8 :: bs) hw
  have horigin : AtMessageStart t.rx := by
    have h := Cursor.atOrigin_afterBytes_eot (k := s.rx.cursor) hw hbs
    rwa [← hcursor] at h
  have ⟨hrow, hcol, hpidx, hts⟩ := horigin
  have hcfg : t.cfg = s.cfg := runEvents_cfg ht
  rw [← hcfg] at hw ⊢
  obtain ⟨-, hrows, -, hcols, -⟩ := Config.wf_geometry hw
  obtain ⟨hslots, -⟩ := Config.wf_capacity hw
  have hcol' : satInc t.cfg.CUR_MAX t.rx.col = 1 := by rw [hcol]; exact satInc_of_lt (Config.cur_max_pos hw)
  obtain ⟨u, hu, hrecords, -, -, -, hframe⟩ := oneRecordsOverflowsOrDrops t hw
  rw [hrow, hcol, hts, hpidx] at hrecords
  have hsel : u.rx.live_sel = t.rx.live_sel := by rw [hframe]
  refine ⟨t, ht, horigin, u, (exec_rxByte_one hw).trans hu, fun hcell => ?_, ?_, ?_, ?_⟩
  · obtain ⟨hpoint, -⟩ := hrecords hcell ⟨hslots, Nat.mul_pos hrows hcols⟩
    rwa [← hsel] at hpoint
  · rw [hframe]; exact hrow
  · rw [hframe]; exact hcol'
  · rw [exec_rxByte_zero hw, ← hcol']
    rfl

/-! ### Decoding is a function of the byte sequence alone -/

/-- The decoder's part of the state a result goes on in. -/
def viewAfter (r : Result) : Option DecoderView := (nextState? r).map fun t => t.rx.decoderView

theorem viewAfter_ite (p : Prop) [Decidable p] (a b : Result) :
    viewAfter (if p then a else b) = if p then viewAfter a else viewAfter b := apply_ite _ p a b

theorem viewAfter_eq_some_iff {r : Result} {v : DecoderView} :
    viewAfter r = some v ↔ ∃ t, r = .next t ∧ t.rx.decoderView = v := by
  cases r <;> simp [viewAfter, nextState?]

/-- The state with nothing but a decoder's part of a receiver; everything else is as RESET leaves it. -/
def State.decoderOnly (c : Config) (v : DecoderView) : State :=
  (State.resetWith c []).setRx
    { Receiver.reset c with
      row := v.row
      col := v.col
      pidx := v.pidx
      ts := v.ts
      after_eot := v.after_eot
      ovf_cnt := v.ovf_cnt
      mal_cnt := v.mal_cnt
      fb := v.fb
      live_sel := v.live_sel
      maxTimestep := v.maxTimestep }

section
variable (s : State)

/-- The decoder's part says which pins the cursor stands for (R69). -/
theorem decoderOnly_windowPoint :
    windowPoint (State.decoderOnly s.cfg s.rx.decoderView).cfg (State.decoderOnly s.cfg s.rx.decoderView).rx.row
        (State.decoderOnly s.cfg s.rx.decoderView).rx.col =
      windowPoint s.cfg s.rx.row s.rx.col := rfl

theorem execOne_view : viewAfter (execOne s) = viewAfter (execOne (.decoderOnly s.cfg s.rx.decoderView)) := by
  simp only [execOne, viewAfter_ite, decoderOnly_windowPoint]
  cases windowPoint s.cfg s.rx.row s.rx.col <;> rfl

theorem execFrameEnd_view :
    viewAfter (execFrameEnd s) = viewAfter (execFrameEnd (.decoderOnly s.cfg s.rx.decoderView)) := by
  simp only [execFrameEnd, viewAfter_ite]
  rfl

theorem execEot_view : viewAfter (execEot s) = viewAfter (execEot (.decoderOnly s.cfg s.rx.decoderView)) := by
  simp only [execEot, viewAfter_ite]
  rfl

/-- A byte's action reads the decoder's part of the receiver and the parameters only (R168). -/
theorem exec_dec_view {i : Instr} (hi : agentOf i = .dec) :
    viewAfter (exec i s) = viewAfter (exec i (.decoderOnly s.cfg s.rx.decoderView)) := by
  obtain ⟨k, hk⟩ := Option.isSome_iff_exists.1 ((byteClass_isSome s.cfg i).trans (decide_eq_true hi))
  rw [exec_of_byteClass hk, exec_of_byteClass (s := .decoderOnly s.cfg s.rx.decoderView) hk]
  cases k with
  | one => exact execOne_view s
  | frameEnd => exact execFrameEnd_view s
  | eot => exact execEot_view s
  | zero | rowEnd | ignore => rfl

end

section
variable {s t u : State}

/-- States with one decoder's part do the same with a byte, as far as that part goes. -/
theorem exec_dec_of_view_eq {i : Instr} (hi : agentOf i = .dec) (hcfg : u.cfg = s.cfg)
    (hview : u.rx.decoderView = s.rx.decoderView) (hx : exec i s = .next t) :
    ∃ v, exec i u = .next v ∧ v.rx.decoderView = t.rx.decoderView := by
  rw [← viewAfter_eq_some_iff, exec_dec_view u hi, hcfg, hview, ← exec_dec_view s hi, hx]
  rfl

/-- The events of other agents may be left out of a run, as far as the decoder's part goes (R168). -/
theorem runEvents_dec_of_view_eq {is : List Instr} (hrst : ∀ i ∈ is, i ≠ .reset .receiver) (hcfg : u.cfg = s.cfg)
    (hview : u.rx.decoderView = s.rx.decoderView) (hrun : runEvents is s = .next t) :
    ∃ v, runEvents (is.filter fun i => decide (agentOf i = .dec)) u = .next v ∧
      v.rx.decoderView = t.rx.decoderView := by
  induction is generalizing s u with
  | nil => cases hrun; exact ⟨u, rfl, hview⟩
  | cons i is ih =>
    obtain ⟨hi, hrst⟩ := List.forall_mem_cons.1 hrst
    obtain ⟨s', hs', hrest⟩ := runEvents_cons_next hrun
    obtain ⟨hcfg', -⟩ := exec_environment hs'
    by_cases hdec : agentOf i = .dec
    · obtain ⟨u', hu', hview'⟩ := exec_dec_of_view_eq hdec hcfg hview hs'
      obtain ⟨hcfgu, -⟩ := exec_environment hu'
      obtain ⟨v, hv, hend⟩ := ih hrst (hcfgu.trans (hcfg.trans hcfg'.symm)) hview' hrest
      exact ⟨v, by rw [List.filter_cons_of_pos (by simpa using hdec), runEvents_cons hu', hv], hend⟩
    · have hkept := exec_keeps_decoderView hs' hdec (mt agentOf_eq_rst_iff.1 hi)
      obtain ⟨v, hv, hend⟩ := ih hrst (hcfg.trans hcfg'.symm) (hview.trans hkept.symm) hrest
      exact ⟨v, by rw [List.filter_cons_of_neg (by simpa using hdec), hv], hend⟩

end

/-- Settles O26, from two equal states. -/
theorem decodingIgnoresOtherAgents : Obligations.DecodingIgnoresOtherAgents :=
  fun _ _ _ hrst hrun => runEvents_dec_of_view_eq hrst rfl rfl hrun

/-! ### Receivers on one wire

What a receiver shares with the others on its wire: all but the registers and the entries that its window decides. -/

/-- The receiver with the parts that depend on its window erased (R174). -/
def Receiver.onWire (r : Receiver) : Receiver := { r with pidx := 0, ovf_cnt := 0, fb := ⟨[], []⟩ }

theorem onWire_eq_iff {r r' : Receiver} :
    r'.onWire = r.onWire ↔ r' = { r with pidx := r'.pidx, ovf_cnt := r'.ovf_cnt, fb := r'.fb } := by
  cases r
  cases r'
  simp [Receiver.onWire]

/-- What a byte of a class does to the shared part, window or not (R162 to R167): ONE does what ZERO does. -/
def Receiver.wireAfter (c : Config) (r : Receiver) : ByteClass → Receiver
  | .one | .zero => { r with col := satInc c.CUR_MAX r.col, after_eot := false }
  | .rowEnd => { r with row := satInc c.CUR_MAX r.row, col := 0, after_eot := false }
  | .frameEnd =>
    if r.row = 0 ∧ r.col = 0 then
      { r with
        mal_cnt := if r.after_eot = true then r.mal_cnt else satInc c.DIAG_MAX r.mal_cnt
        after_eot := false }
    else
      { r with row := 0, col := 0, ts := if r.ts < c.MAX_TIMESTEPS then r.ts + 1 else r.ts, after_eot := false }
  | .eot =>
    { r with
      mal_cnt := if r.row = 0 ∧ r.col = 0 then r.mal_cnt else satInc c.DIAG_MAX r.mal_cnt
      live_sel := !r.live_sel
      maxTimestep := r.ts
      current_timestep := 0
      row := 0
      col := 0
      ts := 0
      after_eot := true }
  | .ignore => r

section
variable {s t : State}

theorem execOne_onWire (hx : execOne s = .next t) : t.rx.onWire = s.rx.onWire.wireAfter s.cfg .one := by
  obtain ⟨-, -, p, -, rfl⟩ | ⟨-, -, rfl⟩ | ⟨-, rfl⟩ := execOne_cases hx <;> rfl

theorem execFrameEnd_onWire (hx : execFrameEnd s = .next t) :
    t.rx.onWire = s.rx.onWire.wireAfter s.cfg .frameEnd := by
  obtain ⟨he, heot, rfl⟩ | ⟨he, heot, rfl⟩ | ⟨he, hts, rfl⟩ | ⟨he, hts, rfl⟩ := execFrameEnd_cases hx
  · simp [Receiver.wireAfter, Receiver.onWire, ← frameEmpty_iff, he, heot]
  · simp [Receiver.wireAfter, Receiver.onWire, ← frameEmpty_iff, he, heot]
  · simp [Receiver.wireAfter, Receiver.onWire, ← frameEmpty_iff, he, hts]
  · simp [Receiver.wireAfter, Receiver.onWire, ← frameEmpty_iff, he, hts]

theorem execEot_onWire (hx : execEot s = .next t) : t.rx.onWire = s.rx.onWire.wireAfter s.cfg .eot := by
  rw [execEot_eq, Host.Outcome.next.injEq] at hx
  subst hx
  cases he : s.rx.frameEmpty <;> simp [Receiver.wireAfter, Receiver.onWire, ← frameEmpty_iff, he]

/-- A byte changes the shared part as its class says, whatever the window is. -/
theorem exec_byteClass_onWire {i : Instr} {k : ByteClass} (hk : byteClass s.cfg i = some k)
    (hx : exec i s = .next t) : t.rx.onWire = s.rx.onWire.wireAfter s.cfg k := by
  rw [exec_of_byteClass hk] at hx
  cases k with
  | one => exact execOne_onWire hx
  | frameEnd => exact execFrameEnd_onWire hx
  | eot => exact execEot_onWire hx
  | zero | rowEnd | ignore => cases hx; rfl

end

/-- The shared part after a byte string. -/
def Receiver.wireAfterBytes (c : Config) (bs : List Byte) (r : Receiver) : Receiver :=
  bs.foldl (fun r b => r.wireAfter c (classify c b)) r

/-- Under a well-formed configuration a byte string is decoded to its end, and the shared part is then a function of the
bytes and of what it was. -/
theorem runEvents_rxBytes_onWire (bs : List Byte) {s : State} (hw : s.cfg.wf = true) :
    ∃ t, runEvents (rxBytes bs) s = .next t ∧ t.rx.onWire = s.rx.onWire.wireAfterBytes s.cfg bs := by
  induction bs generalizing s with
  | nil => exact ⟨s, rfl, rfl⟩
  | cons b bs ih =>
    have hk : byteClass s.cfg (.rxByte b) = some (classify s.cfg b) := rfl
    obtain ⟨u, hu⟩ := exec_byteClass_next hk hw
    obtain ⟨hcfg, -⟩ := exec_environment hu
    obtain ⟨t, ht, hshared⟩ := ih (hcfg ▸ hw)
    refine ⟨t, (runEvents_cons hu _).trans ht, ?_⟩
    rw [hshared, hcfg, exec_byteClass_onWire hk hu]
    rfl

/-- A configuration with the window and the pin tables of another. -/
def withWindowOf (c d : Config) : Config :=
  { c with
    ROW_OFFSET := d.ROW_OFFSET
    ROW_SPAN := d.ROW_SPAN
    COL_OFFSET := d.COL_OFFSET
    COL_SPAN := d.COL_SPAN
    ROW_PIN := d.ROW_PIN
    COL_PIN := d.COL_PIN }

/-- What bytes do to the shared part does not depend on the window. -/
theorem wireAfterBytes_withWindowOf (c d : Config) (bs : List Byte) (r : Receiver) :
    r.wireAfterBytes (withWindowOf c d) bs = r.wireAfterBytes c bs := by
  have hstep : ∀ (r : Receiver) (b : Byte),
      r.wireAfter (withWindowOf c d) (classify (withWindowOf c d) b) = r.wireAfter c (classify c b) := by
    intro r b
    rw [show classify (withWindowOf c d) b = classify c b from rfl]
    cases classify c b <;> rfl
  simp only [Receiver.wireAfterBytes, hstep]

/-- Settles O27: the part that the receivers share is a function of the bytes, the same for every window. -/
theorem receiversOnOneWireAgree : Obligations.ReceiversOnOneWireAgree := by
  intro s s' bs hw hw' hcfg hrx
  obtain ⟨t, ht, hshared⟩ := runEvents_rxBytes_onWire bs hw
  obtain ⟨t', ht', hshared'⟩ := runEvents_rxBytes_onWire bs hw'
  have hcfg : s'.cfg = withWindowOf s.cfg s'.cfg := hcfg
  rw [hcfg, wireAfterBytes_withWindowOf, onWire_eq_iff.2 hrx, ← hshared] at hshared'
  exact ⟨t, t', ht, ht', onWire_eq_iff.1 hshared'⟩

/-! ### Points written one after the other -/

namespace Memory

/-- `FB[b].pt[t][i] <- ps[i]` for every index of `ps`, in order. -/
def writePoints (m : Memory) (b : Bool) (t : Nat) (ps : List Point) : Memory :=
  ps.zipIdx.foldl (fun m e => m.writePoint b t e.2 e.1) m

section
variable (m : Memory) (b b' : Bool) (t t' i : Nat) (ps : List Point)

@[simp] theorem writePoints_nil : m.writePoints b t [] = m := rfl

@[simp] theorem writePoints_append_singleton (p : Point) :
    m.writePoints b t (ps ++ [p]) = (m.writePoints b t ps).writePoint b t ps.length p := by
  simp [writePoints, List.zipIdx_append]

@[simp] theorem readCount_writePoints : (m.writePoints b t ps).readCount b' t' = m.readCount b' t' := by
  induction ps using List.reverseRecOn with
  | nil => rfl
  | append_singleton ps p ih => rw [writePoints_append_singleton, readCount_writePoint, ih]

theorem readPoint_writePoints :
    (m.writePoints b t ps).readPoint b' t' i =
      if b' = b ∧ t' = t ∧ i < ps.length then ps[i]? else m.readPoint b' t' i := by
  induction ps using List.reverseRecOn with
  | nil => simp
  | append_singleton ps p ih =>
    rw [writePoints_append_singleton, readPoint_writePoint, ih, List.length_append, List.length_singleton]
    by_cases hlast : i = ps.length
    · subst hlast
      simp
    · have hlt : i < ps.length + 1 ↔ i < ps.length := by omega
      have hin : i < ps.length → (ps ++ [p])[i]? = ps[i]? := List.getElem?_append_left
      simp only [hlast, and_false, if_false, hlt]
      split
      · next h => exact (hin h.2.2).symm
      · rfl

end

end Memory

/-! ### The points a message records -/

section
variable {c : Config} {f : Frame} {row col : Nat}

/-- The points of the lit window cells of a row of a frame before column `col`. -/
def rowPoints (c : Config) (f : Frame) (row col : Nat) : List Point :=
  (List.range col).filterMap fun k => if lit f row k && inWindow c row k then some (pinsAt c row k) else none

/-- The points of the lit window cells of a frame before cell (row, col), in row-major order. -/
def pointsBefore (c : Config) (f : Frame) (row col : Nat) : List Point :=
  ((List.range row).flatMap fun r => rowPoints c f r c.COLS) ++ rowPoints c f row col

theorem pointsBefore_origin : pointsBefore c f 0 0 = [] := rfl

/-- A row passed whole is followed by the next one. -/
theorem pointsBefore_nextRow : pointsBefore c f row c.COLS = pointsBefore c f (row + 1) 0 := by
  simp [pointsBefore, rowPoints, List.range_succ]

/-- Past the last row stand all the points that the window keeps of the frame (R170). -/
theorem pointsBefore_rows : pointsBefore c f c.ROWS 0 = litPoints c f (inWindow c) := List.append_nil _

/-- Past a lit cell of the window stands its point. -/
theorem pointsBefore_recorded (hlit : lit f row col = true) (hcell : inWindow c row col = true) :
    pointsBefore c f row (col + 1) = pointsBefore c f row col ++ [pinsAt c row col] := by
  simp [pointsBefore, rowPoints, List.range_succ, hlit, hcell]

/-- Past any other cell stand the points before it. -/
theorem pointsBefore_skipped (h : lit f row col = false ∨ inWindow c row col = false) :
    pointsBefore c f row (col + 1) = pointsBefore c f row col := by
  obtain h | h := h <;> simp [pointsBefore, rowPoints, List.range_succ, h]

theorem rowPoints_length_le : (rowPoints c f row col).length ≤ col :=
  (List.length_filterMap_le ..).trans_eq List.length_range

/-- No more points than cells. -/
theorem pointsBefore_length_le : (pointsBefore c f row col).length ≤ row * c.COLS + col := by
  have hrows : ((List.range row).map fun r => (rowPoints c f r c.COLS).length).sum ≤ row * c.COLS := by
    have h := List.sum_le_card_nsmul ((List.range row).map fun r => (rowPoints c f r c.COLS).length) c.COLS
      (by simpa using fun r _ => rowPoints_length_le)
    simpa using h
  rw [pointsBefore, List.length_append, List.length_flatMap]
  exact Nat.add_le_add hrows rowPoints_length_le

/-- While a cell of the matrix is ahead, a slot has room (R71). -/
theorem pointsBefore_length_lt_cap (hrow : row < c.ROWS) (hcol : col < c.COLS) :
    (pointsBefore c f row col).length < c.CAP :=
  calc (pointsBefore c f row col).length
    _ ≤ row * c.COLS + col := pointsBefore_length_le
    _ < (row + 1) * c.COLS := by rw [Nat.succ_mul]; omega
    _ ≤ c.ROWS * c.COLS := Nat.mul_le_mul_right _ hrow

/-- Only what `keep` says of the matrix's cells matters. -/
theorem litPoints_congr {keep keep' : Nat → Nat → Bool}
    (h : ∀ row col, row < c.ROWS → col < c.COLS → keep row col = keep' row col) :
    litPoints c f keep = litPoints c f keep' := by
  refine List.flatMap_congr fun row hrow => List.filterMap_congr fun col hcol => ?_
  rw [h row col (List.mem_range.1 hrow) (List.mem_range.1 hcol)]

end

/-! ### The decoder inside a frame -/

namespace State

variable (s : State) (eot : Bool) (row col : Nat) (ps : List Point)

/-- From a state at the start of a frame: the cursor has come to cell (row, col), the points `ps` are recorded, and
`after_eot` is `eot`. -/
def inFrame : State :=
  s.setRx { s.rx with row := row, col := col, pidx := ps.length, fb := s.rx.fb.writePoints s.rx.stage s.rx.ts ps,
                      after_eot := eot }

/-- From a state at the start of a frame: a frame with the points `ps` has been stored in its slot. -/
def storeFrame : State :=
  s.setRx { s.rx with row := 0, col := 0, pidx := 0, ts := s.rx.ts + 1,
                      fb := (s.rx.fb.writePoints s.rx.stage s.rx.ts ps).writeCount s.rx.stage s.rx.ts ps.length,
                      after_eot := false }

variable {s row col}

theorem inFrame_origin (hrow : s.rx.row = 0) (hcol : s.rx.col = 0) (hpidx : s.rx.pidx = 0) :
    s.inFrame s.rx.after_eot 0 0 [] = s := by
  obtain ⟨cfg, rx, tx, inputs, out, no⟩ := s
  obtain ⟨⟩ := rx
  obtain rfl : _ = 0 := hrow
  obtain rfl : _ = 0 := hcol
  obtain rfl : _ = 0 := hpidx
  rfl

theorem inFrame_nextCol (h : col < s.cfg.CUR_MAX) :
    (s.inFrame eot row col ps).nextCol = s.inFrame false row (col + 1) ps := by
  rw [← satInc_of_lt h]
  rfl

theorem inFrame_recordPoint (p : Point) :
    (s.inFrame eot row col ps).recordPoint p = s.inFrame eot row col (ps ++ [p]) := by
  rw [inFrame, inFrame, Memory.writePoints_append_singleton, List.length_append]
  rfl

theorem inFrame_nextRow (h : row < s.cfg.CUR_MAX) :
    (s.inFrame eot row col ps).nextRow = s.inFrame false (row + 1) 0 ps := by
  rw [← satInc_of_lt h]
  rfl

end State

theorem rxBytes_append (bs bs' : List Byte) : rxBytes (bs ++ bs') = rxBytes bs ++ rxBytes bs' := List.map_append

theorem runEvents_rxBytes_singleton {b : Byte} {s t : State} (h : exec (.rxByte b) s = .next t) :
    runEvents (rxBytes [b]) s = .next t :=
  runEvents_cons h []

section
variable {s : State} {f : Frame} {eot : Bool} {row col n : Nat} {ps : List Point}

/-- The byte of a cell inside the frame: the cursor moves right, and the cell's point is recorded if it is lit and in the
window (R162, R163). -/
theorem exec_cellByte (hw : s.cfg.wf = true) (hts : s.rx.ts < s.cfg.MAX_TIMESTEPS) (hrow : row < s.cfg.ROWS)
    (hcol : col < s.cfg.COLS) :
    exec (.rxByte (cellByte s.cfg (lit f row col))) (s.inFrame eot row col (pointsBefore s.cfg f row col)) =
      .next (s.inFrame false row (col + 1) (pointsBefore s.cfg f row (col + 1))) := by
  obtain ⟨-, -, -, -, hmax⟩ := Config.wf_geometry hw
  have hnext : col < s.cfg.CUR_MAX := hcol.trans_le hmax
  cases hlit : lit f row col with
  | false =>
    rw [pointsBefore_skipped (.inl hlit), ← State.inFrame_nextCol eot _ hnext]
    exact exec_rxByte_zero hw
  | true =>
    refine (exec_rxByte_one (s := s.inFrame eot row col _) hw).trans ?_
    cases hcell : inWindow s.cfg row col with
    | false =>
      rw [pointsBefore_skipped (.inr hcell), ← State.inFrame_nextCol eot _ hnext]
      exact exec_one_drops hw (Bool.eq_false_iff.1 hcell)
    | true =>
      rw [pointsBefore_recorded hlit hcell, ← State.inFrame_nextCol eot _ hnext, ← State.inFrame_recordPoint]
      exact exec_one_records hw hcell ⟨hts, pointsBefore_length_lt_cap hrow hcol⟩

/-- The bytes of the first `n` cells of a row. -/
theorem runEvents_cells (hw : s.cfg.wf = true) (hts : s.rx.ts < s.cfg.MAX_TIMESTEPS) (hrow : row < s.cfg.ROWS)
    (hn : n ≤ s.cfg.COLS) :
    ∃ eot', runEvents (rxBytes ((List.range n).map fun k => cellByte s.cfg (lit f row k)))
        (s.inFrame eot row 0 (pointsBefore s.cfg f row 0)) =
      .next (s.inFrame eot' row n (pointsBefore s.cfg f row n)) := by
  induction n with
  | zero => exact ⟨eot, rfl⟩
  | succ n ih =>
    obtain ⟨eot', hrun⟩ := ih (by omega)
    refine ⟨false, ?_⟩
    rw [List.range_succ, List.map_append, rxBytes_append, runEvents_append hrun]
    exact runEvents_rxBytes_singleton (exec_cellByte hw hts hrow hn)

/-- The string of a row, cell by cell. -/
theorem rowStr_eq_map_range {c : Config} (hrow : (f.getD row []).length = c.COLS) :
    rowStr c (f.getD row []) = (List.range c.COLS).map fun k => cellByte c (lit f row k) := by
  refine List.ext_getElem (by rw [rowStr, List.length_map, hrow, List.length_map, List.length_range]) fun k hk _ => ?_
  have hk : k < (f.getD row []).length := by rwa [rowStr, List.length_map] at hk
  simp only [rowStr, lit, List.getElem_map, List.getElem_range, List.getD_eq_getElem _ false hk]

/-- The bytes of a whole row. -/
theorem runEvents_rowStr (hw : s.cfg.wf = true) (hts : s.rx.ts < s.cfg.MAX_TIMESTEPS) (hf : s.cfg.wfFrame f = true)
    (hrow : row < s.cfg.ROWS) :
    ∃ eot', runEvents (rxBytes (rowStr s.cfg (f.getD row []))) (s.inFrame eot row 0 (pointsBefore s.cfg f row 0)) =
      .next (s.inFrame eot' row s.cfg.COLS (pointsBefore s.cfg f (row + 1) 0)) := by
  obtain ⟨hrows, hcols⟩ := Config.wfFrame_iff.1 hf
  have hlen : (f.getD row []).length = s.cfg.COLS := by
    rw [List.getD_eq_getElem f [] (hrows ▸ hrow)]
    exact hcols _ (List.getElem_mem _)
  rw [rowStr_eq_map_range hlen, ← pointsBefore_nextRow]
  exact runEvents_cells hw hts hrow le_rfl

/-- The string of a frame of `n + 1` rows: a separator after every row but the last (R125). -/
theorem frameStr_eq_rows {c : Config} (hn : f.length = n + 1) :
    frameStr c f =
      ((List.range n).flatMap fun r => rowStr c (f.getD r []) ++ [c.BYTE_SEP]) ++ rowStr c (f.getD n []) := by
  induction n generalizing f with
  | zero =>
    obtain ⟨row, rfl⟩ := List.length_eq_one_iff.1 hn
    rfl
  | succ n ih =>
    obtain ⟨row, f, rfl⟩ := List.exists_cons_of_length_eq_add_one hn
    have hn : f.length = n + 1 := Nat.succ.inj hn
    rw [frameStr_cons_of_ne_nil (List.ne_nil_of_length_pos (by omega)), ih hn, List.range_succ_eq_map,
      List.flatMap_cons, List.flatMap_map]
    simp

/-- The bytes of the first `n` rows of a frame, each with its separator. -/
theorem runEvents_rows (hw : s.cfg.wf = true) (hts : s.rx.ts < s.cfg.MAX_TIMESTEPS) (hf : s.cfg.wfFrame f = true)
    (hn : n < s.cfg.ROWS) :
    ∃ eot', runEvents (rxBytes ((List.range n).flatMap fun r => rowStr s.cfg (f.getD r []) ++ [s.cfg.BYTE_SEP]))
        (s.inFrame eot 0 0 []) =
      .next (s.inFrame eot' n 0 (pointsBefore s.cfg f n 0)) := by
  obtain ⟨-, -, hmax, -⟩ := Config.wf_geometry hw
  induction n with
  | zero => exact ⟨eot, rfl⟩
  | succ n ih =>
    obtain ⟨eot', hrun⟩ := ih (by omega)
    obtain ⟨eot'', hlast⟩ := runEvents_rowStr (row := n) (eot := eot') hw hts hf (by omega)
    refine ⟨false, ?_⟩
    rw [List.range_succ, List.flatMap_append, rxBytes_append, runEvents_append hrun, List.flatMap_singleton,
      rxBytes_append, runEvents_append hlast,
      ← State.inFrame_nextRow (col := s.cfg.COLS) eot'' _ (show n < s.cfg.CUR_MAX by omega)]
    exact runEvents_rxBytes_singleton (exec_rxByte_rowEnd (s := s.inFrame eot'' n s.cfg.COLS _) hw)

/-- A terminator past the first column of a row stores the frame (R165). -/
theorem exec_frameEnd_inFrame (hw : s.cfg.wf = true) (hts : s.rx.ts < s.cfg.MAX_TIMESTEPS) (hcol : 0 < col) :
    exec (.rxByte 0x00#8) (s.inFrame eot row col ps) = .next (s.storeFrame ps) := by
  have hempty : (s.inFrame eot row col ps).rx.frameEmpty = false :=
    Bool.eq_false_iff.2 fun h => hcol.ne' (frameEmpty_iff.1 h).2
  exact (exec_rxByte_frameEnd (s := s.inFrame eot row col ps) hw).trans (exec_frameEnd_stores hempty hts)

/-- R170 for one frame: from the start of a frame, its bytes store the points of its lit cells in the window. -/
theorem runEvents_frameMsg (hw : s.cfg.wf = true) (hts : s.rx.ts < s.cfg.MAX_TIMESTEPS)
    (hf : s.cfg.wfFrame f = true) (hrow : s.rx.row = 0) (hcol : s.rx.col = 0) (hpidx : s.rx.pidx = 0) :
    runEvents (rxBytes (frameMsg s.cfg f)) s = .next (s.storeFrame (litPoints s.cfg f (inWindow s.cfg))) := by
  obtain ⟨hrows, -⟩ := Config.wfFrame_iff.1 hf
  obtain ⟨-, hpos, -, hcols, -⟩ := Config.wf_geometry hw
  obtain ⟨n, hn⟩ : ∃ n, s.cfg.ROWS = n + 1 := ⟨s.cfg.ROWS - 1, by omega⟩
  obtain ⟨eot, hrun⟩ := runEvents_rows (n := n) (eot := s.rx.after_eot) hw hts hf (by omega)
  obtain ⟨eot', hlast⟩ := runEvents_rowStr (row := n) (eot := eot) hw hts hf (by omega)
  rw [State.inFrame_origin hrow hcol hpidx] at hrun
  rw [← hn, pointsBefore_rows] at hlast
  rw [frameMsg, frameStr_eq_rows (hrows.trans hn), List.append_assoc, rxBytes_append, runEvents_append hrun,
    rxBytes_append, runEvents_append hlast]
  exact runEvents_rxBytes_singleton (exec_frameEnd_inFrame hw hts hcols)

end

/-! ### A whole message -/

/-- From `s` at the start of a message the decoder has come to `t`: it has staged exactly these frames, through the
window, and stands at the start of the next. -/
structure Staged (s : State) (frames : List Frame) (t : State) : Prop where
  cfg : t.cfg = s.cfg
  row : t.rx.row = 0
  col : t.rx.col = 0
  pidx : t.rx.pidx = 0
  ts : t.rx.ts = frames.length
  ovf_cnt : t.rx.ovf_cnt = s.rx.ovf_cnt
  mal_cnt : t.rx.mal_cnt = s.rx.mal_cnt
  count : ∀ k f, frames[k]? = some f → t.rx.stagedCount k = (litPoints s.cfg f (inWindow s.cfg)).length
  point : ∀ k f, frames[k]? = some f → ∀ i, i < (litPoints s.cfg f (inWindow s.cfg)).length →
    t.rx.stagedPoint k i = (litPoints s.cfg f (inWindow s.cfg))[i]?

section
variable {s t : State} {f : Frame} {frames : List Frame}

/-- A frame stored is read in its slot, and the slots of the others read as before. -/
theorem stagedCount_storeFrame (s : State) (ps : List Point) (k : Nat) :
    (s.storeFrame ps).rx.stagedCount k = if k = s.rx.ts then ps.length else s.rx.stagedCount k := by
  show Memory.readCount _ s.rx.stage k = _
  simp [State.storeFrame, Memory.readCount_writeCount, Receiver.stagedCount]

theorem stagedPoint_storeFrame (s : State) (ps : List Point) (k i : Nat) :
    (s.storeFrame ps).rx.stagedPoint k i =
      if k = s.rx.ts ∧ i < ps.length then ps[i]? else s.rx.stagedPoint k i := by
  show Memory.readPoint _ s.rx.stage k i = _
  simp [State.storeFrame, Memory.readPoint_writePoints, Receiver.stagedPoint]

theorem staged_nil (h : AtMessageStart s.rx) : Staged s [] s := by
  obtain ⟨hrow, hcol, hpidx, hts⟩ := h
  exact ⟨rfl, hrow, hcol, hpidx, hts, rfl, rfl, fun _ _ h => (nomatch h), fun _ _ h => (nomatch h)⟩

/-- An entry of a list with one more element at its end is an entry of the list, or that element. -/
theorem getElem?_append_singleton_cases {α : Type} {l : List α} {a b : α} {k : Nat} (h : (l ++ [a])[k]? = some b) :
    (k < l.length ∧ l[k]? = some b) ∨ (k = l.length ∧ a = b) := by
  rw [List.getElem?_append] at h
  split at h
  · next hlt => exact .inl ⟨hlt, h⟩
  · next hge =>
    obtain ⟨hk, hab⟩ := List.getElem?_eq_some_iff.1 h
    rw [List.length_singleton] at hk
    exact .inr ⟨by omega, by simpa using hab⟩

/-- Storing the points of one more frame stages it after the others. -/
theorem Staged.storeFrame (h : Staged s frames t) (f : Frame) :
    Staged s (frames ++ [f]) (t.storeFrame (litPoints s.cfg f (inWindow s.cfg))) where
  cfg := h.cfg
  row := rfl
  col := rfl
  pidx := rfl
  ts := by rw [List.length_append, ← h.ts]; rfl
  ovf_cnt := h.ovf_cnt
  mal_cnt := h.mal_cnt
  count k g hk := by
    rw [stagedCount_storeFrame, h.ts]
    obtain ⟨hlt, hk⟩ | ⟨rfl, rfl⟩ := getElem?_append_singleton_cases hk
    · rw [if_neg hlt.ne, h.count k g hk]
    · rw [if_pos rfl]
  point k g hk i hi := by
    rw [stagedPoint_storeFrame, h.ts]
    obtain ⟨hlt, hk⟩ | ⟨rfl, rfl⟩ := getElem?_append_singleton_cases hk
    · rw [if_neg fun hsame => hlt.ne hsame.1, h.point k g hk i hi]
    · rw [if_pos ⟨rfl, hi⟩]

/-- The bytes of frames for which there are slots stage them (R170). -/
theorem runEvents_frameMsgs (hw : s.cfg.wf = true) (hstart : AtMessageStart s.rx)
    (hf : ∀ f ∈ frames, s.cfg.wfFrame f = true) (hlen : frames.length ≤ s.cfg.MAX_TIMESTEPS) :
    ∃ t, runEvents (rxBytes (frames.flatMap (frameMsg s.cfg))) s = .next t ∧ Staged s frames t := by
  induction frames using List.reverseRecOn with
  | nil => exact ⟨s, rfl, staged_nil hstart⟩
  | append_singleton frames f ih =>
    obtain ⟨hf, hlast⟩ := List.forall_mem_append.1 hf
    rw [List.length_append, List.length_singleton] at hlen
    obtain ⟨t, hrun, ht⟩ := ih hf (by omega)
    have hmsg : runEvents (rxBytes (frameMsg t.cfg f)) t = _ :=
      runEvents_frameMsg (ht.cfg ▸ hw) (by rw [ht.ts, ht.cfg]; omega) (ht.cfg ▸ hlast f (List.mem_singleton_self f))
        ht.row ht.col ht.pidx
    rw [ht.cfg] at hmsg
    refine ⟨_, ?_, ht.storeFrame f⟩
    rw [List.flatMap_append, rxBytes_append, runEvents_append hrun, List.flatMap_singleton, hmsg]

/-- EOT shows the frames staged, and the terminator after it ends the message (R92, R165, R166). -/
theorem Staged.runEvents_eot (hw : s.cfg.wf = true) (h : Staged s frames t) :
    runEvents (rxBytes [0x04#8, 0x00#8]) t = .next t.publish.clearAfterEot := by
  have hw : t.cfg.wf = true := h.cfg ▸ hw
  have heot := (exec_rxByte_eot hw).trans (exec_eot_of_empty (frameEmpty_iff.2 ⟨h.row, h.col⟩))
  have hend := (exec_rxByte_frameEnd (s := t.publish) hw).trans (exec_frameEnd_final rfl rfl)
  exact (runEvents_cons heot _).trans (runEvents_rxBytes_singleton hend)

theorem Staged.shows (h : Staged s frames t) : Shows t.publish.clearAfterEot.rx s.cfg frames (inWindow s.cfg) :=
  ⟨h.ts, fun k f hk => ⟨h.count k f hk, h.point k f hk⟩⟩

theorem inWindow_eq_decide (c : Config) : inWindow c = fun row col =>
    decide (c.ROW_OFFSET ≤ row ∧ row < c.ROW_OFFSET + c.ROW_SPAN ∧ c.COL_OFFSET ≤ col ∧
      col < c.COL_OFFSET + c.COL_SPAN) := by
  funext row col
  simp only [inWindow, Bool.decide_and, Bool.and_assoc]

end

/-- Settles O28: the frames are staged one by one, and EOT shows them. -/
theorem messageDecodesToTheWindowOfItsPattern : Obligations.MessageDecodesToTheWindowOfItsPattern := by
  intro s p hw hf hlen hstart
  obtain ⟨t, hrun, ht⟩ := runEvents_frameMsgs hw hstart hf hlen
  refine ⟨t.publish.clearAfterEot, ?_, ?_, ⟨rfl, rfl, rfl, rfl⟩, rfl, ht.ovf_cnt, ht.mal_cnt⟩
  · rw [msg, rxBytes_append, runEvents_append hrun]
    exact ht.runEvents_eot hw
  · rw [← inWindow_eq_decide]
    exact ht.shows

/-- What is shown depends only on which of the matrix's cells are kept. -/
theorem Shows.congr {r : Receiver} {c : Config} {frames : List Frame} {keep keep' : Nat → Nat → Bool}
    (hkeep : ∀ row col, row < c.ROWS → col < c.COLS → keep row col = keep' row col) (h : Shows r c frames keep) :
    Shows r c frames keep' := by
  unfold Shows at h ⊢
  simpa only [litPoints_congr hkeep] using h

/-- Settles O29: the full window keeps every cell of the matrix. -/
theorem messageRoundTripsUnderAFullWindow : Obligations.MessageRoundTripsUnderAFullWindow := by
  intro s p hw hf hrow hrows hcol hcols hlen hstart
  obtain ⟨t, hrun, hshows, hend⟩ := messageDecodesToTheWindowOfItsPattern s p hw hf hlen hstart
  refine ⟨t, hrun, hshows.congr fun row col hr hc => decide_eq_true ?_, hend⟩
  omega

/-! ### From the sender's library to the live bank -/

section
variable {is : List Instr} {s t : State}

/-- Events of the receiver leave the sender alone, however many (R2). -/
theorem runEvents_keeps_tx (his : ∀ i ∈ is, onReceiver i = true) (hrun : runEvents is s = .next t) :
    t.tx = s.tx := by
  induction is generalizing s with
  | nil => cases hrun; rfl
  | cons i is ih =>
    obtain ⟨hi, his⟩ := List.forall_mem_cons.1 his
    obtain ⟨u, hu, hrest⟩ := runEvents_cons_next hrun
    exact (ih his hrest).trans (exec_keeps_txSide hi hu).1

/-- Events of the sender leave the receiver alone, however many (R2). -/
theorem emitRun_keeps_rx {bs : List Byte} (his : ∀ i ∈ is, onReceiver i = false) (hrun : emitRun is s = some (bs, t)) :
    t.rx = s.rx := by
  induction is generalizing s bs with
  | nil => cases hrun; rfl
  | cons i is ih =>
    obtain ⟨hi, his⟩ := List.forall_mem_cons.1 his
    obtain ⟨u, bs', hu, hrest, -⟩ := emitRun_cons_some hrun
    exact (ih his hrest).trans (exec_keeps_rx (s := s.beginEvent s.inputs) hi hu)

end

/-- Settles O47: as many ready polls as the message has bytes emit it whole and leave the receiver at the start of a
message, and the bytes decode to the pattern. -/
theorem selectedPatternReachesTheLiveBank : Obligations.SelectedPatternReachesTheLiveBank := by
  intro s i p hw hp hlen hidle hstart
  obtain ⟨-, -, hlib⟩ := Config.wf_library hw
  obtain ⟨-, hf⟩ := Config.wfPattern_iff.1 (hlib p (List.mem_of_getElem? hp))
  have hselect := exec_select_idle hp hidle
  obtain ⟨u, hemit, hcfg, hdone⟩ :=
    accepted_select_polls hw hp hidle hselect (List.replicate (msg s.cfg p).length true)
  rw [List.count_replicate_self, List.map_replicate] at hemit
  rw [List.count_replicate_self] at hdone
  rw [List.take_length] at hemit
  have hrx : u.rx = s.rx := emitRun_keeps_rx (s := s.arm _) (fun i hi => List.eq_of_mem_replicate hi ▸ rfl) hemit
  rw [← hcfg] at hw hf hlen
  obtain ⟨v, hrun, hshows, -⟩ := messageDecodesToTheWindowOfItsPattern u p hw hf hlen (hrx ▸ hstart)
  have htx : v.tx = u.tx := runEvents_keeps_tx (by simp [rxBytes, onReceiver, agentOf]) hrun
  rw [hcfg] at hrun hshows
  exact ⟨_, msg s.cfg p, u, v, hselect, hemit, hrun, by rw [htx]; exact hdone.2 le_rfl, hshows⟩

end Sys2Proof.Machine
end

section
/-! PROOF. The family 43_animation_clock.md: what one tick writes (R190), and the cycle that repeated ticks run through
(R191). -/

namespace Sys2Proof.Machine

/-! ### One tick -/

/-- Settles O32: the meaning with its two ways to 0 told apart. -/
theorem animTickHoldsWrapsOrAdvances : Obligations.AnimTickHoldsWrapsOrAdvances := by
  intro s
  have htick : exec .animTick s = _ := execAnimTick_eq s
  rw [htick, ite_or]
  rfl

/-! ### Repeated ticks -/

/-- The timestep on display `n` ticks after timestep 0 when `m` frames are published: the sequence of R191. -/
def timestepAfter (m n : Nat) : Nat := if m = 0 then 0 else n % m

@[simp] theorem timestepAfter_no_pattern (n : Nat) : timestepAfter 0 n = 0 := if_pos rfl

theorem timestepAfter_of_pos {m : Nat} (hm : 0 < m) (n : Nat) : timestepAfter m n = n % m := if_neg hm.ne'

@[simp] theorem timestepAfter_start (m : Nat) : timestepAfter m 0 = 0 := by simp [timestepAfter]

/-- One more tick takes the sequence of R191 one place further, back to 0 from its last timestep. -/
theorem timestepAfter_succ (m n : Nat) :
    timestepAfter m (n + 1) =
      if m = 0 ∨ timestepAfter m n + 1 ≥ m then 0 else timestepAfter m n + 1 := by
  obtain rfl | hm := m.eq_zero_or_pos
  · simp
  · rw [timestepAfter_of_pos hm, timestepAfter_of_pos hm, ← Nat.mod_add_mod]
    have hlt : n % m < m := Nat.mod_lt n hm
    by_cases hlast : n % m + 1 = m
    · rw [if_pos (.inr hlast.ge), hlast, Nat.mod_self]
    · rw [if_neg (by omega), Nat.mod_eq_of_lt (by omega)]

section
variable {s t : State}

theorem State.showTimestep_of_shown {k : Nat} (h : s.rx.current_timestep = k) : s.showTimestep k = s := by
  subst h
  rfl

/-- A tick takes the state at one place of R191's sequence to the state at the next. -/
theorem exec_animTick_timestepAfter (s : State) (n : Nat) :
    exec .animTick (s.showTimestep (timestepAfter s.rx.maxTimestep n)) =
      .next (s.showTimestep (timestepAfter s.rx.maxTimestep (n + 1))) := by
  rw [timestepAfter_succ]
  exact execAnimTick_eq _

/-- R191 over a run of ticks; nothing but `current_timestep` moves. -/
theorem runEvents_animTicks (hstart : s.rx.current_timestep = 0) (n : Nat) :
    runEvents (List.replicate n .animTick) s = .next (s.showTimestep (timestepAfter s.rx.maxTimestep n)) := by
  induction n with
  | zero => rw [timestepAfter_start, State.showTimestep_of_shown hstart, List.replicate_zero, runEvents_nil]
  | succ n ih =>
    rw [List.replicate_succ', runEvents_append ih]
    exact runEvents_cons (exec_animTick_timestepAfter s n) []

theorem exec_reset_receiver_current_timestep (hx : exec (.reset .receiver) s = .next t) :
    t.rx.current_timestep = 0 := by
  cases hx
  rfl

/-- Whether or not a frame was left unterminated, a publish starts the animation at 0 (R166). -/
theorem exec_eot_current_timestep (hx : exec .eot s = .next t) : t.rx.current_timestep = 0 := by
  by_cases he : s.rx.frameEmpty = true
  · cases (exec_eot_of_empty he).symm.trans hx
    rfl
  · cases (exec_eot_of_not_empty he).symm.trans hx
    rfl

end

/-- Settles O33, by induction on the number of ticks. -/
theorem animationRepeatsThePattern : Obligations.AnimationRepeatsThePattern :=
  ⟨fun _ n hstart => runEvents_animTicks hstart n,
    fun _ _ hx => hx.elim exec_reset_receiver_current_timestep exec_eot_current_timestep⟩

end Sys2Proof.Machine
end

section
/-! PROOF. The family 44_scan_dim_engine.md: the three micro-steps of SCAN_STEP with the ramp (R201, R206), a whole pass
(R204), the PWM counter with its blanking (R208, R209), and the lit LED (R210). -/

namespace Sys2Proof.Machine

/-! ### The three micro-steps -/

section
variable {s : State}

theorem exec_scanStep_of_lit (hlit : s.rx.scan_lit = true) : exec .scanStep s = .next s.deassert :=
  if_pos hlit

theorem exec_scanStep_of_point {p : Point} (hlit : s.rx.scan_lit = false) (hi : s.rx.scan_i < s.rx.slotCount)
    (hp : s.rx.livePoint s.rx.current_timestep s.rx.scan_i = some p) :
    exec .scanStep s = .next (s.assertPoint p) := by
  simp [exec, execScanStep, hlit, hi, hp]

theorem exec_scanStep_of_passed (hlit : s.rx.scan_lit = false) (hi : s.rx.slotCount ≤ s.rx.scan_i) :
    exec .scanStep s = .next s.endPass := by
  simp [exec, execScanStep, hlit, hi.not_gt]

end

/-! ### A pass -/

/-- The state `s` with its pass at point `k`, everything else as in `s`. -/
def State.scanAt (s : State) (k : Nat) : State := s.setRx { s.rx with scan_i := k }

theorem State.scanAt_of_scan_i {s : State} {k : Nat} (h : s.rx.scan_i = k) : s.scanAt k = s := by
  subst h
  rfl

/-- SCAN is at the start of a pass over the points `ps`, all of them written, with nothing driven (R204). -/
structure PassStart (s : State) (ps : List Point) : Prop where
  scan_i : s.rx.scan_i = 0
  scan_lit : s.rx.scan_lit = false
  row_drv : s.rx.row_drv = none
  col_drv : s.rx.col_drv = none
  slotCount : s.rx.slotCount = ps.length
  livePoint : ∀ k, k < ps.length → s.rx.livePoint s.rx.current_timestep k = ps[k]?

theorem runEvents_replicate_succ {i : Instr} {s t u : State} {n : Nat}
    (hrun : runEvents (List.replicate n i) s = .next t) (hstep : exec i t = .next u) :
    runEvents (List.replicate (n + 1) i) s = .next u := by
  rw [List.replicate_succ', runEvents_append hrun]
  exact runEvents_cons hstep []

namespace PassStart
variable {s : State} {ps : List Point} {p : Point} {k : Nat}

theorem exec_scanAt (h : PassStart s ps) (hp : ps[k]? = some p) :
    exec .scanStep (s.scanAt k) = .next ((s.scanAt k).assertPoint p) := by
  have hk : k < ps.length := (List.getElem?_eq_some_iff.1 hp).1
  exact exec_scanStep_of_point h.scan_lit (hk.trans_eq h.slotCount.symm) ((h.livePoint k hk).trans hp)

/-- Releasing the lines of a lit point leaves only the advance to the next one. -/
theorem deassert_assertPoint (h : PassStart s ps) : ((s.scanAt k).assertPoint p).deassert = s.scanAt (k + 1) := by
  have hrx : ((s.scanAt k).assertPoint p).deassert.rx = (s.scanAt (k + 1)).rx := by
    simp [State.scanAt, h.scan_lit, h.row_drv, h.col_drv]
  exact congrArg s.setRx hrx

theorem run_dark (h : PassStart s ps) (hk : k ≤ ps.length) :
    runEvents (List.replicate (2 * k) .scanStep) s = .next (s.scanAt k) := by
  induction k with
  | zero => rw [State.scanAt_of_scan_i h.scan_i, Nat.mul_zero, List.replicate_zero, runEvents_nil]
  | succ k ih =>
    have hlit := runEvents_replicate_succ (ih (by omega)) (h.exec_scanAt (List.getElem?_eq_getElem hk))
    have hdark := runEvents_replicate_succ hlit (exec_scanStep_of_lit rfl)
    rwa [h.deassert_assertPoint] at hdark

theorem run_lit (h : PassStart s ps) (hp : ps[k]? = some p) :
    runEvents (List.replicate (2 * k + 1) .scanStep) s = .next ((s.scanAt k).assertPoint p) :=
  have hk : k < ps.length := (List.getElem?_eq_some_iff.1 hp).1
  runEvents_replicate_succ (h.run_dark hk.le) (h.exec_scanAt hp)

theorem run_pass (h : PassStart s ps) :
    runEvents (List.replicate (2 * ps.length + 1) .scanStep) s = .next s.endPass :=
  runEvents_replicate_succ (h.run_dark le_rfl) (exec_scanStep_of_passed h.scan_lit h.slotCount.le)

theorem endPass_rx (h : PassStart s ps) :
    s.endPass.rx = { s.rx with
      duty := (rampAfter s.cfg s.rx.duty s.rx.duty_dir).1
      duty_dir := (rampAfter s.cfg s.rx.duty s.rx.duty_dir).2 } := by
  simp only [State.endPass_rx, h.scan_i]

end PassStart

/-- Settles O36, by induction on the points already passed. -/
theorem passLightsEveryPointInOrder : Obligations.PassLightsEveryPointInOrder := by
  intro s ps hi hlit hrow hcol hcount hpoint
  have h : PassStart s ps := ⟨hi, hlit, hrow, hcol, hcount, hpoint⟩
  exact ⟨fun k p hp => ⟨_, h.run_lit hp, rfl⟩, fun k hk => ⟨_, h.run_dark hk, rfl⟩, _, h.run_pass, h.endPass_rx⟩

/-! ### The ramp -/

section
variable {c : Config} {duty : Nat}

theorem rampAfter_up_turns (h : c.DUTY_MAX ≤ duty + c.DUTY_STEP) : rampAfter c duty .up = (c.DUTY_MAX, .down) :=
  if_pos h

theorem rampAfter_up_rises (h : duty + c.DUTY_STEP < c.DUTY_MAX) :
    rampAfter c duty .up = (duty + c.DUTY_STEP, .up) := if_neg h.not_ge

theorem rampAfter_down_turns (h : duty ≤ c.DUTY_MIN + c.DUTY_STEP) : rampAfter c duty .down = (c.DUTY_MIN, .up) :=
  if_pos h

theorem rampAfter_down_falls (h : c.DUTY_MIN + c.DUTY_STEP < duty) :
    rampAfter c duty .down = (duty - c.DUTY_STEP, .down) := if_neg h.not_ge

/-- R206: a duty between the bounds keeps between them, whatever the other parameters are. -/
theorem rampAfter_between (hmin : c.DUTY_MIN ≤ duty) (hmax : duty ≤ c.DUTY_MAX) (d : DutyDir) :
    c.DUTY_MIN ≤ (rampAfter c duty d).1 ∧ (rampAfter c duty d).1 ≤ c.DUTY_MAX := by
  cases d with
  | up =>
    rcases le_or_gt c.DUTY_MAX (duty + c.DUTY_STEP) with h | h
    · rw [rampAfter_up_turns h]
      exact ⟨hmin.trans hmax, le_rfl⟩
    · rw [rampAfter_up_rises h]
      exact ⟨hmin.trans (Nat.le_add_right _ _), h.le⟩
  | down =>
    rcases le_or_gt duty (c.DUTY_MIN + c.DUTY_STEP) with h | h
    · rw [rampAfter_down_turns h]
      exact ⟨le_rfl, hmin.trans hmax⟩
    · rw [rampAfter_down_falls h]
      exact ⟨Nat.le_sub_of_add_le h.le, (Nat.sub_le _ _).trans hmax⟩

end

/-- Settles O34: one micro-step per case, and the ramp's four. -/
theorem scanStepDeassertsAssertsOrEndsThePass : Obligations.ScanStepDeassertsAssertsOrEndsThePass := by
  intro s
  refine ⟨exec_scanStep_of_lit, fun hlit hi p hp => exec_scanStep_of_point hlit hi hp, fun hlit hi =>
    ⟨s.endPass, exec_scanStep_of_passed hlit hi, ?_⟩⟩
  rw [State.endPass_rx]
  refine ⟨fun hd h => ?_, fun hd h => ?_, fun hd h => ?_, fun hd h => ?_,
    fun hmin hmax => rampAfter_between hmin hmax _, rfl⟩
  · simp [hd, rampAfter_up_turns h]
  · simp [hd, rampAfter_up_rises h]
  · simp [hd, rampAfter_down_turns h]
  · have hstep : s.cfg.DUTY_STEP ≤ s.rx.duty := (Nat.le_add_left _ _).trans h.le
    simp [hd, rampAfter_down_falls h, Nat.sub_add_cancel hstep]

/-! ### The blanking -/

section
variable {n duty : Nat} {blank : Bool}

theorem blankAfter_match (h : n = duty) : blankAfter n duty blank = true := if_pos h

theorem blankAfter_zero (h : n ≠ duty) (h0 : n = 0) : blankAfter n duty blank = false := by
  subst h0
  exact if_neg h

theorem blankAfter_keeps (h : n ≠ duty) (h0 : n ≠ 0) : blankAfter n duty blank = blank := by
  simp [blankAfter, h, h0]

/-- Counting up without a wrap keeps the rows enabled exactly below `duty`. -/
theorem blankAfter_succ_eq_false_iff (h : blank = false ↔ n < duty) :
    blankAfter (n + 1) duty blank = false ↔ n + 1 < duty := by
  by_cases hmatch : n + 1 = duty
  · simp [blankAfter_match hmatch, hmatch.not_lt]
  · rw [blankAfter_keeps hmatch n.succ_ne_zero, h]
    omega

/-- A tick of a counter below `period` enables the rows exactly below `duty` again; at the wrap, `blank` before it plays
no part. -/
theorem blankAfter_tick_eq_false_iff {period : Nat} (hduty : 0 < duty) (hn : n < period)
    (h : n + 1 < period → (blank = false ↔ n < duty)) :
    blankAfter ((n + 1) % period) duty blank = false ↔ (n + 1) % period < duty := by
  obtain hwrap | hup : n + 1 = period ∨ n + 1 < period := Nat.eq_or_lt_of_le hn
  · rw [hwrap, Nat.mod_self, blankAfter_zero hduty.ne rfl]
    exact iff_of_true rfl hduty
  · rw [Nat.mod_eq_of_lt hup]
    exact blankAfter_succ_eq_false_iff (h hup)

end

/-- Settles O37: the three cases of the blanking at the new count. -/
theorem pwmTickCountsReleasesAndBlanks : Obligations.PwmTickCountsReleasesAndBlanks :=
  fun s => ⟨s.countPwm, rfl, rfl, blankAfter_match, blankAfter_zero, blankAfter_keeps, rfl⟩

/-- The state `s` with the PWM agent's two registers at `n` and `b`, everything else as in `s`. -/
def State.pwmAt (s : State) (n : Nat) (b : Bool) : State := s.setRx { s.rx with pwm_cnt := n, blank := b }

theorem State.exec_pwmTick_pwmAt (s : State) (n : Nat) (b : Bool) :
    exec .pwmTick (s.pwmAt n b) =
      .next (s.pwmAt ((n + 1) % s.cfg.PWM_PERIOD) (blankAfter ((n + 1) % s.cfg.PWM_PERIOD) s.rx.duty b)) := rfl

/-- R209 over a run of ticks: whatever `blank` was before, from the first wrap on it follows the count. -/
theorem runEvents_pwmTicks {s : State} (hduty : 0 < s.rx.duty) (hcnt : s.rx.pwm_cnt < s.cfg.PWM_PERIOD) (n : Nat) :
    ∃ b, runEvents (List.replicate n .pwmTick) s = .next (s.pwmAt ((s.rx.pwm_cnt + n) % s.cfg.PWM_PERIOD) b) ∧
      (s.cfg.PWM_PERIOD ≤ s.rx.pwm_cnt + n →
        (b = false ↔ (s.rx.pwm_cnt + n) % s.cfg.PWM_PERIOD < s.rx.duty)) := by
  induction n with
  | zero =>
    refine ⟨s.rx.blank, ?_, fun hwrap => absurd hwrap hcnt.not_ge⟩
    rw [Nat.add_zero, Nat.mod_eq_of_lt hcnt]
    rfl
  | succ n ih =>
    obtain ⟨b, hrun, hb⟩ := ih
    have hrun' := runEvents_replicate_succ hrun (s.exec_pwmTick_pwmAt _ b)
    have hcount : ((s.rx.pwm_cnt + n) % s.cfg.PWM_PERIOD + 1) % s.cfg.PWM_PERIOD =
        (s.rx.pwm_cnt + (n + 1)) % s.cfg.PWM_PERIOD := Nat.mod_add_mod _ _ _
    rw [← hcount]
    refine ⟨_, hrun', fun hwrap => blankAfter_tick_eq_false_iff hduty (Nat.mod_lt _ (Nat.two_pow_pos _)) fun hup =>
      hb (not_lt.1 fun hlt => ?_)⟩
    rw [Nat.mod_eq_of_lt hlt] at hup
    omega

/-- Settles O38, by induction on the ticks. -/
theorem rowsEnabledForDutyCounts : Obligations.RowsEnabledForDutyCounts := by
  intro s n hduty _ hcnt hwrap
  obtain ⟨b, hrun, hb⟩ := runEvents_pwmTicks hduty hcnt n
  exact ⟨_, hrun, rfl, hb hwrap, rfl⟩

/-! ### The lit LED -/

/-- Under the scan invariant a driven line is one of the pin tables', so the ports gate nothing but the blanking. -/
theorem ledLit_iff_driven {s : State} {r c : Nat} (h : ScanInv s.cfg s.rx) :
    s.ledLit r c = true ↔ s.rx.row_drv = some r ∧ s.rx.col_drv = some c ∧ s.rx.blank = false := by
  obtain ⟨-, -, -, -, hrow, hcol⟩ := h
  rw [ledLit_iff, rowOut_iff, colOut_iff]
  exact ⟨fun ⟨⟨_, hr, hb⟩, _, hc⟩ => ⟨hr, hc, hb⟩, fun ⟨hr, hc, hb⟩ => ⟨⟨hrow r hr, hr, hb⟩, hcol c hc, hc⟩⟩

/-- Settles O40: each of the two drivers holds one pin. -/
theorem atMostOneLedIsLit : Obligations.AtMostOneLedIsLit := by
  refine fun s h => ⟨fun r c => ledLit_iff_driven h, fun r c r' c' hlit hlit' => ?_⟩
  obtain ⟨hr, hc, -⟩ := (ledLit_iff_driven h).1 hlit
  obtain ⟨hr', hc', -⟩ := (ledLit_iff_driven h).1 hlit'
  exact ⟨Option.some.inj (hr.symm.trans hr'), Option.some.inj (hc.symm.trans hc')⟩

end Sys2Proof.Machine
end

section
/-! PROOF. The family 60_exceptions.md: the order in which simultaneous strobes are served (R237, R238), and when the
decoder's error classes are raised and how they are counted (R232, R233, R239, R241). -/

namespace Sys2Proof.Machine

/-! ### The events of one sample -/

/-- A filtered map written out element by element, as R238 lists the strobes. -/
theorem map_filter_cons {α β : Type} (q : α → Bool) (f : α → β) (a : α) (l : List α) :
    ((a :: l).filter q).map f = (if q a then [f a] else []) ++ (l.filter q).map f := by
  rw [List.filter_cons]
  split <;> rfl

section
variable {c : Config} {p : Ports} {st : Strobe}

/-- The events of R238 written out are those of the strobes at 1, in the strobes' order. -/
theorem cycleEvents_eq_events (c : Config) (p : Ports) : cycleEvents c p = p.events c := by
  simp only [Ports.events, Strobe.inOrder, map_filter_cons, List.filter_nil, List.map_nil, List.append_nil]
  simp only [cycleEvents, List.append_assoc]
  rfl

/-- Serving a strobe clears it and no other (R16, R236). -/
theorem strobe_serve (p : Ports) (st st' : Strobe) : (serve p st).strobe st' = (st' != st && p.strobe st') := by
  cases st <;> cases st' <;> rfl

/-- Serving a strobe leaves the data ports as they are. -/
theorem event_serve (c : Config) (p : Ports) (st : Strobe) : (serve p st).event c = p.event c := by
  funext st'
  cases st <;> cases st' <;> rfl

/-- Serving a strobe takes it out of the strobes at 1; each is listed once. -/
theorem filter_strobe_serve (p : Ports) (st : Strobe) :
    Strobe.inOrder.filter (serve p st).strobe = (Strobe.inOrder.filter p.strobe).erase st := by
  have hnodup : Strobe.inOrder.Nodup := by decide
  rw [(hnodup.filter _).erase_eq_filter, List.filter_filter]
  exact List.filter_congr fun st' _ => strobe_serve p st st'

theorem events_of_quiet (h : p.first = none) : p.events c = [] := by
  rw [Ports.first, ← List.head?_filter, List.head?_eq_none_iff] at h
  rw [Ports.events, h, List.map_nil]

/-- The strobe served first gives the first event; what is left of the sample gives the others (R238). -/
theorem events_of_first (h : p.first = some st) : p.events c = p.event c st :: (serve p st).events c := by
  rw [Ports.first, ← List.head?_filter, List.head?_eq_some_iff] at h
  obtain ⟨later, hlater⟩ := h
  rw [Ports.events, Ports.events, filter_strobe_serve, event_serve, hlater, List.erase_cons_head, List.map_cons]

theorem afterServing_of_quiet (h : p.first = none) (rest : List Ports) : afterServing p rest = rest := by
  rw [afterServing_eq, if_pos h]

theorem afterServing_of_first (h : p.first = some st) (rest : List Ports) : afterServing p rest = p :: rest := by
  rw [afterServing_eq, if_neg (by simp [h])]

/-- Dropping a sample with no strobe left loses no event. -/
theorem flatMap_events_afterServing (c : Config) (p : Ports) (rest : List Ports) :
    (afterServing p rest).flatMap (Ports.events c) = p.events c ++ rest.flatMap (Ports.events c) := by
  cases h : p.first with
  | none => rw [afterServing_of_quiet h, events_of_quiet h, List.nil_append]
  | some st => rw [afterServing_of_first h, List.flatMap_cons]

end

/-- Settles O9, by the first strobe of the sample at the head. -/
theorem strobesServedInPriorityOrder : Obligations.StrobesServedInPriorityOrder := by
  intro c inputs rest
  have heq : cycleEvents c = Ports.events c := funext (cycleEvents_eq_events c)
  rw [heq]
  cases inputs with
  | nil => exact ⟨nofun, fun h => by cases h; rfl⟩
  | cons p later =>
    rw [List.flatMap_cons]
    cases hst : p.first with
    | none =>
      rw [fetch_quiet c hst, events_of_quiet hst]
      exact ⟨nofun, fun h => by cases h; rfl⟩
    | some st =>
      rw [fetch_strobe c hst, events_of_first hst]
      refine ⟨fun i h => ?_, nofun⟩
      cases h
      rw [flatMap_events_afterServing, List.cons_append]

/-! ### A cycle is the sequence of its events -/

/-- What an event is a function of, and what the statements about a cycle compare: the parameters and the whole state of
the two sub-blocks (R20), without the model's ports and counter. -/
def State.hardware (s : State) : Config × Receiver × Sender := (s.cfg, s.rx, s.tx)

/-- The state with a given hardware part; the ports and the counter are as RESET leaves them. -/
def State.ofHardware (h : Config × Receiver × Sender) : State :=
  { State.resetWith h.1 [] with rx := h.2.1, tx := h.2.2 }

/-- The hardware part of the state a result goes on in. -/
def hardwareAfter (r : Result) : Option (Config × Receiver × Sender) := (nextState? r).map State.hardware

theorem hardwareAfter_ite (p : Prop) [Decidable p] (a b : Result) :
    hardwareAfter (if p then a else b) = if p then hardwareAfter a else hardwareAfter b := apply_ite _ p a b

theorem hardwareAfter_eq_some_iff {r : Result} {h : Config × Receiver × Sender} :
    hardwareAfter r = some h ↔ ∃ t, r = .next t ∧ t.hardware = h := by
  cases r <;> simp [hardwareAfter, nextState?]

section
variable (s : State)

theorem execOne_hardware : hardwareAfter (execOne s) = hardwareAfter (execOne (.ofHardware s.hardware)) := by
  have hpoint : windowPoint (State.ofHardware s.hardware).cfg (State.ofHardware s.hardware).rx.row
      (State.ofHardware s.hardware).rx.col = windowPoint s.cfg s.rx.row s.rx.col := rfl
  simp only [execOne, hardwareAfter_ite, hpoint]
  cases windowPoint s.cfg s.rx.row s.rx.col <;> rfl

theorem execFrameEnd_hardware :
    hardwareAfter (execFrameEnd s) = hardwareAfter (execFrameEnd (.ofHardware s.hardware)) := by
  simp only [execFrameEnd, hardwareAfter_ite]
  rfl

theorem execEot_hardware : hardwareAfter (execEot s) = hardwareAfter (execEot (.ofHardware s.hardware)) := by
  simp only [execEot, hardwareAfter_ite]
  rfl

theorem execAnimTick_hardware :
    hardwareAfter (execAnimTick s) = hardwareAfter (execAnimTick (.ofHardware s.hardware)) := by
  simp only [execAnimTick, hardwareAfter_ite]
  rfl

theorem execScanStep_hardware :
    hardwareAfter (execScanStep s) = hardwareAfter (execScanStep (.ofHardware s.hardware)) := by
  have hpoint : (State.ofHardware s.hardware).rx.livePoint (State.ofHardware s.hardware).rx.current_timestep
      (State.ofHardware s.hardware).rx.scan_i = s.rx.livePoint s.rx.current_timestep s.rx.scan_i := rfl
  simp only [execScanStep, hardwareAfter_ite, hpoint]
  cases s.rx.livePoint s.rx.current_timestep s.rx.scan_i <;> rfl

theorem execSelect_hardware (k : Nat) :
    hardwareAfter (execSelect k s) = hardwareAfter (execSelect k (.ofHardware s.hardware)) := by
  have hpattern : (State.ofHardware s.hardware).cfg.PATTERNS[k]? = s.cfg.PATTERNS[k]? := rfl
  simp only [execSelect, hpattern]
  cases s.cfg.PATTERNS[k]? with
  | none => rfl
  | some p => simp only [hardwareAfter_ite]; rfl

theorem execTxPoll_hardware (ready : Bool) :
    hardwareAfter (execTxPoll ready s) = hardwareAfter (execTxPoll ready (.ofHardware s.hardware)) := by
  have htx : (State.ofHardware s.hardware).tx = s.tx := rfl
  simp only [execTxPoll, hardwareAfter_ite, htx]
  cases s.tx.entry s.tx.q_idx with
  | none => rfl
  | some str =>
    simp only [hardwareAfter_ite]
    cases str[s.tx.byte_offset]? <;> rfl

theorem exec_byteClass_hardware {i : Instr} {k : ByteClass} (hk : byteClass s.cfg i = some k) :
    hardwareAfter (exec i s) = hardwareAfter (exec i (.ofHardware s.hardware)) := by
  rw [exec_of_byteClass hk, exec_of_byteClass (s := .ofHardware s.hardware) hk]
  cases k with
  | one => exact execOne_hardware s
  | frameEnd => exact execFrameEnd_hardware s
  | eot => exact execEot_hardware s
  | zero | rowEnd | ignore => rfl

/-- No event reads the samples to come, the output port or the counter. -/
theorem exec_hardware (i : Instr) :
    hardwareAfter (exec i s) = hardwareAfter (exec i (.ofHardware s.hardware)) := by
  cases i with
  | one | zero | rowEnd | frameEnd | eot | ignore | rxByte => exact exec_byteClass_hardware s rfl
  | animTick => exact execAnimTick_hardware s
  | scanStep => exact execScanStep_hardware s
  | select k => exact execSelect_hardware s k
  | txPoll ready => exact execTxPoll_hardware s ready
  | pwmTick => rfl
  | reset target => cases target <;> rfl

end

section
variable {s t u : State} {p : Ports}

/-- States with one hardware part do the same with an event, as far as that part goes. -/
theorem exec_of_hardware_eq {i : Instr} (hhw : u.hardware = s.hardware) (hx : exec i s = .next t) :
    ∃ v, exec i u = .next v ∧ v.hardware = t.hardware := by
  rw [← hardwareAfter_eq_some_iff, exec_hardware, hhw, ← exec_hardware, hx]
  rfl

theorem run_succ (hstep : step s = .next t) (k : Nat) :
    Host.Core.run Sys2Proof.core (k + 1) s = Host.Core.run Sys2Proof.core k t := by
  have hstep : Sys2Proof.core.step s = .next t := hstep
  simp only [Host.Core.run, hstep]

/-- The steps of one sample's events do what a run of the events does, and use the sample up. -/
theorem run_cycle {rest : List Ports} {is : List Instr} (hw : s.cfg.wf = true)
    (hinputs : s.inputs = afterServing p rest) (hevents : p.events s.cfg = is) (hhw : s.hardware = u.hardware)
    (hrun : runEvents is u = .next t) :
    ∃ v, Host.Core.run Sys2Proof.core is.length s = .next v ∧ v.hardware = t.hardware ∧ v.inputs = rest := by
  induction is generalizing s u p with
  | nil =>
    cases hrun
    cases hst : p.first with
    | none => exact ⟨s, rfl, hhw, by rw [hinputs, afterServing_of_quiet hst]⟩
    | some st => simp [events_of_first hst] at hevents
  | cons i is ih =>
    cases hst : p.first with
    | none => simp [events_of_quiet hst] at hevents
    | some st =>
      obtain ⟨hi, hlater⟩ := List.cons.inj ((events_of_first hst).symm.trans hevents)
      have hfetch : fetch s.cfg s.inputs = (some i, afterServing (serve p st) rest) := by
        rw [hinputs, afterServing_of_first hst, fetch_strobe s.cfg hst, hi]
      obtain ⟨u', hu', hrun'⟩ := runEvents_cons_next hrun
      obtain ⟨s', hs', hhw'⟩ :=
        exec_of_hardware_eq (u := s.beginEvent (afterServing (serve p st) rest)) hhw hu'
      obtain ⟨hcfg, hinputs', -⟩ := exec_environment hs'
      rw [State.beginEvent_cfg] at hcfg
      rw [List.length_cons, run_succ ((step_event hw hfetch).trans hs')]
      exact ih (hcfg ▸ hw) hinputs' (hcfg ▸ hlater) hhw' hrun'

end

/-- Settles O10: before its first event the sample is whole. -/
theorem cycleIsTheSequenceOfItsEvents : Obligations.CycleIsTheSequenceOfItsEvents := by
  intro s t p rest hw hinputs hne hrun
  rw [cycleEvents_eq_events] at hne hrun ⊢
  have hwhole : s.inputs = afterServing p rest := by
    obtain ⟨st, hst⟩ := Option.ne_none_iff_exists'.1 (mt events_of_quiet hne)
    rw [hinputs, afterServing_of_first hst]
  obtain ⟨v, hv, hhw, hrest⟩ := run_cycle hw hwhole rfl rfl hrun
  simp only [State.hardware, Prod.mk.injEq] at hhw
  obtain ⟨-, hrx, htx⟩ := hhw
  exact ⟨v, hv, hrx, htx, hrest⟩

/-! ### The error an event raises in the decoder -/

/-- The error class that an event raises in the decoder, if any (R232, R233). -/
def State.decoderError (s : State) (i : Instr) : Option ErrorClass :=
  match byteClass s.cfg i with
  | some .one =>
    if inWindow s.cfg s.rx.row s.rx.col = true ∧ ¬(s.rx.ts < s.cfg.MAX_TIMESTEPS ∧ s.rx.pidx < s.cfg.CAP) then
      some .bufferOverflow
    else none
  | some .frameEnd =>
    if s.rx.frameEmpty then if s.rx.after_eot then none else some .malformedFrame
    else if s.rx.ts < s.cfg.MAX_TIMESTEPS then none
    else some .bufferOverflow
  | some .eot => if s.rx.frameEmpty then none else some .malformedFrame
  | _ => none

section
variable {s t : State} {i : Instr}

/-- With `ts` and `pidx` in range, the two cases of R232. -/
theorem decoderError_eq_bufferOverflow_iff (hts : s.rx.ts ≤ s.cfg.MAX_TIMESTEPS) (hpidx : s.rx.pidx ≤ s.cfg.CAP) :
    s.decoderError i = some .bufferOverflow ↔
      (byteClass s.cfg i = some .one ∧ CellInWindow s.cfg s.rx.row s.rx.col ∧
        (s.rx.ts = s.cfg.MAX_TIMESTEPS ∨ s.rx.pidx = s.cfg.CAP)) ∨
      (byteClass s.cfg i = some .frameEnd ∧ ¬(s.rx.row = 0 ∧ s.rx.col = 0) ∧ s.rx.ts = s.cfg.MAX_TIMESTEPS) := by
  have hslot : s.rx.ts = s.cfg.MAX_TIMESTEPS ↔ ¬s.rx.ts < s.cfg.MAX_TIMESTEPS := by omega
  have hroom : s.rx.ts = s.cfg.MAX_TIMESTEPS ∨ s.rx.pidx = s.cfg.CAP ↔
      ¬(s.rx.ts < s.cfg.MAX_TIMESTEPS ∧ s.rx.pidx < s.cfg.CAP) := by omega
  rw [← frameEmpty_iff, cellInWindow_iff, hroom, hslot, State.decoderError]
  generalize byteClass s.cfg i = k?
  match k? with
  | some .one => simp
  | some .frameEnd => cases s.rx.frameEmpty <;> cases s.rx.after_eot <;> simp
  | some .eot => simp
  | none | some .zero | some .rowEnd | some .ignore => simp

/-- The two cases of R233. -/
theorem decoderError_eq_malformedFrame_iff :
    s.decoderError i = some .malformedFrame ↔
      (byteClass s.cfg i = some .frameEnd ∧ (s.rx.row = 0 ∧ s.rx.col = 0) ∧ s.rx.after_eot = false) ∨
      (byteClass s.cfg i = some .eot ∧ ¬(s.rx.row = 0 ∧ s.rx.col = 0)) := by
  rw [← frameEmpty_iff, State.decoderError]
  generalize byteClass s.cfg i = k?
  match k? with
  | some .one => simp
  | some .frameEnd => cases s.rx.frameEmpty <;> cases s.rx.after_eot <;> simp
  | some .eot => simp
  | none | some .zero | some .rowEnd | some .ignore => simp

/-- An event raises one class, which counts once and moves no other counter, or none, and then no counter moves. -/
theorem exec_decoderError_cases (hrst : i ≠ .reset .receiver) (hx : exec i s = .next t) :
    (s.decoderError i = some .bufferOverflow ∧ t.rx.ovf_cnt = satInc s.cfg.DIAG_MAX s.rx.ovf_cnt ∧
        t.rx.mal_cnt = s.rx.mal_cnt ∧ t.rx.fb = s.rx.fb ∧ t.rx.ts = s.rx.ts) ∨
      (s.decoderError i = some .malformedFrame ∧ t.rx.ovf_cnt = s.rx.ovf_cnt ∧
        t.rx.mal_cnt = satInc s.cfg.DIAG_MAX s.rx.mal_cnt ∧
        (byteClass s.cfg i = some .frameEnd → t = s.raise .malformedFrame) ∧
        (byteClass s.cfg i = some .eot → t = (s.raise .malformedFrame).publish)) ∨
      (s.decoderError i = none ∧ t.rx.ovf_cnt = s.rx.ovf_cnt ∧ t.rx.mal_cnt = s.rx.mal_cnt) := by
  rw [State.decoderError]
  cases hk : byteClass s.cfg i with
  | none =>
    have hdec : agentOf i ≠ .dec := by simpa [hk] using (byteClass_isSome s.cfg i).symm
    have hview := exec_keeps_decoderView hx hdec (mt agentOf_eq_rst_iff.1 hrst)
    exact .inr (.inr ⟨rfl, congrArg DecoderView.ovf_cnt hview, congrArg DecoderView.mal_cnt hview⟩)
  | some k =>
    rw [exec_of_byteClass hk] at hx
    cases k with
    | one =>
      obtain ⟨hcell, hroom, p, -, rfl⟩ | ⟨hcell, hfull, rfl⟩ | ⟨hout, rfl⟩ := execOne_cases hx
      · exact .inr (.inr ⟨if_neg fun h => h.2 hroom, rfl, rfl⟩)
      · exact .inl ⟨if_pos ⟨hcell, hfull⟩, rfl, rfl, rfl, rfl⟩
      · exact .inr (.inr ⟨if_neg (by simp [hout]), rfl, rfl⟩)
    | zero | rowEnd | ignore => cases hx; exact .inr (.inr ⟨rfl, rfl, rfl⟩)
    | frameEnd =>
      obtain ⟨he, heot, rfl⟩ | ⟨he, heot, rfl⟩ | ⟨he, hts, rfl⟩ | ⟨he, hts, rfl⟩ := execFrameEnd_cases hx
      · exact .inr (.inr ⟨by simp [he, heot], rfl, rfl⟩)
      · exact .inr (.inl ⟨by simp [he, heot], rfl, rfl, fun _ => rfl, nofun⟩)
      · exact .inr (.inr ⟨by simp [he, hts], rfl, rfl⟩)
      · exact .inl ⟨by simp [he, hts], rfl, rfl, rfl, rfl⟩
    | eot =>
      by_cases he : s.rx.frameEmpty = true
      · obtain rfl := Host.Outcome.next.inj ((exec_eot_of_empty he).symm.trans hx)
        exact .inr (.inr ⟨if_pos he, rfl, rfl⟩)
      · obtain rfl := Host.Outcome.next.inj ((exec_eot_of_not_empty he).symm.trans hx)
        exact .inr (.inl ⟨if_neg he, rfl, rfl, nofun, fun _ => rfl⟩)

theorem satInc_le_succ (N v : Nat) : satInc N v ≤ v + 1 := by
  unfold satInc; split <;> omega

/-- Only SELECT and RESET of the sender write `sel_status` (R53). -/
theorem agentOf_of_sel_status_ne (hrst : i ≠ .reset .sender) (hx : exec i s = .next t)
    (hne : t.tx.sel_status ≠ s.tx.sel_status) : agentOf i = .sel := by
  by_contra hsel
  have hqueue := exec_keeps_queueRegs hx hsel (mt agentOf_eq_rst_iff.1 hrst)
  exact hne (congrArg (·.2.2) hqueue)

end

/-- Settles O18, from the class the event raises. -/
theorem bufferOverflowRaisedExactlyWhenNamed : Obligations.BufferOverflowRaisedExactlyWhenNamed := by
  intro i s t hts hpidx hrst hx
  rw [← decoderError_eq_bufferOverflow_iff hts hpidx]
  obtain ⟨herr, hovf, -, hfb, hts⟩ | ⟨herr, hovf, -⟩ | ⟨herr, hovf, -⟩ := exec_decoderError_cases hrst hx
  · exact ⟨fun _ => ⟨hovf, hfb, hts⟩, fun hne => absurd herr hne⟩
  · exact ⟨fun h => (nomatch herr.symm.trans h), fun _ => hovf⟩
  · exact ⟨fun h => (nomatch herr.symm.trans h), fun _ => hovf⟩

/-- Settles O19, from the class the event raises. -/
theorem malformedFrameRaisedExactlyWhenNamed : Obligations.MalformedFrameRaisedExactlyWhenNamed := by
  intro i s t hrst hx
  rw [← decoderError_eq_malformedFrame_iff]
  obtain ⟨herr, -, hmal, -⟩ | ⟨herr, -, hmal, hend, heot⟩ | ⟨herr, -, hmal⟩ := exec_decoderError_cases hrst hx
  · exact ⟨fun h => (nomatch herr.symm.trans h), fun _ => hmal⟩
  · exact ⟨fun _ => ⟨hmal, fun hk => by rw [hend hk]; rfl, fun hk => by rw [heot hk]; exact ⟨rfl, rfl⟩⟩,
      fun hne => absurd herr hne⟩
  · exact ⟨fun h => (nomatch herr.symm.trans h), fun _ => hmal⟩

/-- Settles O20: the class raised is one, and SELECT leaves the receiver alone. -/
theorem oneEventRaisesAtMostOneError : Obligations.OneEventRaisesAtMostOneError := by
  intro i s t hrx htx hx
  have hcount : (t.rx.ovf_cnt = s.rx.ovf_cnt ∨ t.rx.mal_cnt = s.rx.mal_cnt) ∧
      t.rx.ovf_cnt ≤ s.rx.ovf_cnt + 1 ∧ t.rx.mal_cnt ≤ s.rx.mal_cnt + 1 := by
    obtain ⟨-, hovf, hmal, -⟩ | ⟨-, hovf, hmal, -⟩ | ⟨-, hovf, hmal⟩ := exec_decoderError_cases hrx hx
    · exact ⟨.inr hmal, hovf ▸ satInc_le_succ _ _, hmal ▸ Nat.le_succ _⟩
    · exact ⟨.inl hovf, hovf ▸ Nat.le_succ _, hmal ▸ satInc_le_succ _ _⟩
    · exact ⟨.inl hovf, hovf ▸ Nat.le_succ _, hmal ▸ Nat.le_succ _⟩
  obtain ⟨hone, hovf, hmal⟩ := hcount
  refine ⟨hone, hovf, hmal, fun hne => ?_⟩
  have hsel : agentOf i = .sel := agentOf_of_sel_status_ne htx hx hne
  have hkept : t.rx = s.rx := exec_keeps_rx (by simp [onReceiver, hsel]) hx
  exact ⟨hsel, by rw [hkept], by rw [hkept]⟩

/-- Settles O21: a counter stays or takes one saturating increment. -/
theorem diagnosticCountersAreSticky : Obligations.DiagnosticCountersAreSticky := by
  intro i s t hovf hmal hrst hx
  obtain ⟨-, hovf', hmal', -⟩ | ⟨-, hovf', hmal', -⟩ | ⟨-, hovf', hmal'⟩ := exec_decoderError_cases hrst hx <;>
    rw [hovf', hmal']
  · exact ⟨le_satInc hovf, satInc_le _ _, le_rfl, hmal⟩
  · exact ⟨le_rfl, hovf, le_satInc hmal, satInc_le _ _⟩
  · exact ⟨le_rfl, hovf, le_rfl, hmal⟩

end Sys2Proof.Machine
end

section
/-! PROOF. The family 70_reset_and_hazards.md: what each RESET leaves (R260, R261), and the reset state as the base of the
invariant. -/

namespace Sys2Proof.Machine

/-- RESET of the receiver replaces the receiver and nothing else (R260). -/
theorem exec_reset_receiver (s : State) : exec (.reset .receiver) s = .next (s.setRx (Receiver.reset s.cfg)) := rfl

/-- RESET of the sender replaces the sender and nothing else (R260). -/
theorem exec_reset_sender (s : State) : exec (.reset .sender) s = .next (s.setTx Sender.reset) := rfl

@[simp] theorem Receiver.reset_readCount (c : Config) (b : Bool) (k : Nat) : (Receiver.reset c).fb.readCount b k = 0 :=
  Memory.readCount_empty b k

@[simp] theorem Receiver.reset_readPoint (c : Config) (b : Bool) (k i : Nat) :
    (Receiver.reset c).fb.readPoint b k i = none :=
  Memory.readPoint_empty b k i

/-- After RESET the queue holds no entry. -/
@[simp] theorem Sender.reset_entry (k : Nat) : Sender.reset.entry k = none := entry_of_le (Nat.zero_le k)

/-- Settles O1: each RESET puts the table's values in place of its sub-block; the two buffers and the queue read empty, and
every other register is the table's by definition. -/
theorem resetTakesTableValues : Obligations.ResetTakesTableValues := by
  intro s
  constructor
  · refine ⟨_, exec_reset_receiver s, ?cursor, ?counters, ?counts, ?points, ?animation, ?scan, ?brightness, ?frame⟩
    case counts => exact Receiver.reset_readCount s.cfg
    case points => exact Receiver.reset_readPoint s.cfg
    case counters => exact ⟨rfl, rfl⟩
    case animation => exact ⟨rfl, rfl, rfl⟩
    case scan | brightness => exact ⟨rfl, rfl, rfl, rfl⟩
    case cursor => exact ⟨rfl, rfl, rfl, rfl, rfl⟩
    case frame => rfl
  · refine ⟨_, exec_reset_sender s, ?queue, ?status, ?frame⟩
    case queue => exact ⟨rfl, Sender.reset_entry, rfl, rfl⟩
    case status => exact ⟨rfl, rfl⟩
    case frame => rfl

/-- Settles O51: the reset state is the base of the invariant that every step keeps. -/
theorem resetHasTheInvariant : Obligations.ResetHasTheInvariant :=
  fun _ inputs hw => stateInv_resetWith hw inputs

end Sys2Proof.Machine
end

section
/-! PROOF. The family 'other': the machine's start state against what the two RESETs leave. -/

namespace Sys2Proof.Machine

/-- Settles O2: State.reset is built from the two sub-blocks' reset values under CFG_REF, and each RESET puts its sub-block's
reset value, under the configuration of the state it meets, in place. -/
theorem machineStartsAsBothResetsLeaveIt : Obligations.MachineStartsAsBothResetsLeaveIt := by
  refine ⟨rfl, rfl, rfl, fun s hcfg => ⟨?receiver, ?sender⟩⟩
  case receiver =>
    calc exec (.reset .receiver) s
      _ = .next (s.setRx (Receiver.reset s.cfg)) := exec_reset_receiver s
      _ = .next (s.setRx (Receiver.reset Config.ref)) := by rw [hcfg]
  case sender => exact exec_reset_sender s

end Sys2Proof.Machine
end
